-- ==== Sys2Proof/Word.lean ====
section
/-! DEFINITION. The block's data word and the four-lane shape its line-indexed state has (10_state.md). -/

namespace Sys2Proof

/-- A `u64` (00_scope.md R9): an unsigned 64-bit value, arithmetic modulo 2^64. -/
abbrev Word := BitVec 64

/-- One value for each of the four lines or lamps, in index order 0..3 (00_scope.md R7, R10). -/
structure Lanes (α : Type) where
  l0 : α
  l1 : α
  l2 : α
  l3 : α
deriving DecidableEq, Repr, Inhabited

/-- A lamp vector `[l0,l1,l2,l3]`, true for on; it is not a binary number (00_scope.md R10). -/
abbrev LampVec := Lanes Bool

end Sys2Proof
end

