-- ==== Sys2Proof/Syntax.lean ====
section
/-! DEFINITION. The names the words of the block are made of, and one constructor of `Instr` per row of
opcode_table.json (30_encoding.md R65 to R71). -/

namespace Sys2Proof

/-- An input line, or a lamp, by its index 0..3 (00_scope.md R7). -/
inductive Line where
  | l0
  | l1
  | l2
  | l3
deriving DecidableEq, Repr, Inhabited

/-- An edge event: a FALLING edge is a press, a RISING edge a release (00_scope.md R14). -/
inductive Edge where
  | rising
  | falling
deriving DecidableEq, Repr, Inhabited

/-- The four phases (10_state.md R26, 30_encoding.md R69). The dead LAST_PHASE has no value (R72). -/
inductive Phase where
  | firstOperandInput
  | secondOperandInput
  | operationSelection
  | resultDisplay
deriving DecidableEq, Repr, Inhabited

/-- The instructions: the ten dispatch actions (30_encoding.md R67) and the four ALU operations (R71).
The arguments are the don't-care bits of a row's dispatch word, read as the phase, line or edge they encode. -/
inductive Instr where
  /-- CONFIRM (R131) in operand phase `p`. -/
  | confirm (p : Phase)
  /-- APPEND0 (R132) in operand phase `p`. -/
  | append0 (p : Phase)
  /-- APPEND1 (R133) in operand phase `p`. -/
  | append1 (p : Phase)
  /-- BACKSPACE (R134) in operand phase `p`. -/
  | backspace (p : Phase)
  /-- RELEASE_OPI (R135): a RISING edge on line `k` in operand phase `p`. -/
  | releaseOpi (p : Phase) (k : Line)
  /-- CONFIRM_OP (R150). -/
  | confirmOp
  /-- CYCLE (R151). -/
  | cycle
  /-- UNBOUND (R152): a FALLING edge on line `k` (2 or 3) in OperationSelection. -/
  | unbound (k : Line)
  /-- RELEASE_OPS (R153): a RISING edge on line `k` in OperationSelection. -/
  | releaseOps (k : Line)
  /-- HELD (R190): edge `e` pending on line `k` in ResultDisplay. -/
  | held (k : Line) (e : Edge)
  /-- ADD (R166). -/
  | add
  /-- SUBTRACT (R167), the table's SUB. -/
  | sub
  /-- MULTIPLY (R168), the table's MUL. -/
  | mul
  /-- DIVIDE (R169), the table's DIV. -/
  | div
deriving DecidableEq, Repr

end Sys2Proof
end

