-- ==== Sys2Proof/Machine/Lanes.lean ====
section
/-! DEFINITION. Reading and writing one lane of a four-lane value, and the line sets and queues made of them
(10_state.md R30, R32, R34). -/

namespace Sys2Proof

/-- The four lines in index order (41_dispatcher.md R114). -/
def allLines : List Line := [.l0, .l1, .l2, .l3]

/-- Lane `k`. -/
def Lanes.get {α : Type} (v : Lanes α) : Line → α
  | .l0 => v.l0
  | .l1 => v.l1
  | .l2 => v.l2
  | .l3 => v.l3

/-- `v` with lane `k` replaced by `x`. -/
def Lanes.set {α : Type} (v : Lanes α) (k : Line) (x : α) : Lanes α :=
  match k with
  | .l0 => { v with l0 := x }
  | .l1 => { v with l1 := x }
  | .l2 => { v with l2 := x }
  | .l3 => { v with l3 := x }

/-- Apply `f` to every lane. -/
def Lanes.map {α β : Type} (f : α → β) (v : Lanes α) : Lanes β := ⟨f v.l0, f v.l1, f v.l2, f v.l3⟩

/-- Every lane holds `x`. -/
def Lanes.all {α : Type} (x : α) : Lanes α := ⟨x, x, x, x⟩

/-- The lowest-numbered line of a set: `min(S)` (41_dispatcher.md R114). -/
def Lanes.lowest (s : Lanes Bool) : Option Line :=
  match s.l0, s.l1, s.l2, s.l3 with
  | true, _, _, _ => some .l0
  | false, true, _, _ => some .l1
  | false, false, true, _ => some .l2
  | false, false, false, true => some .l3
  | false, false, false, false => none

/-- The set without line `k`: `S \ k` (41_dispatcher.md R114). -/
def Lanes.erase (s : Lanes Bool) (k : Line) : Lanes Bool := s.set k false

/-- The set holding line `k` alone. -/
def Lanes.single (k : Line) : Lanes Bool := (Lanes.all false).set k true

/-- The lines of a set in index order. -/
def Lanes.members (s : Lanes Bool) : List Line := allLines.filter s.get

/-- The lines whose queue is not empty (00_scope.md R11, `Ready`). -/
def Lanes.pending (q : Lanes (List Edge)) : Lanes Bool := q.map fun es => !es.isEmpty

end Sys2Proof
end

