-- ==== Sys2Proof/Config.lean ====
section
/-! DEFINITION. The parameters 00_scope.md R7 leaves OPEN and the free values: constants without a body, so that no proof
can see what they are. The fixed parameters (64 bits, 4 lines, 4 lamps, 12 shine cycles) stand in the types. -/

namespace Sys2Proof

/-- `LAMP_INIT`: the lamp levels between setup and the first phase entry, any vector (00_scope.md R7, D19). Log 5. -/
opaque Config.lampInit : LampVec

/-- `T_SHINE_ON` in an unnamed unit (00_scope.md R7, D15). Log 7. -/
opaque Config.tShineOn : Nat

/-- By how much `T_SHINE_OFF` exceeds `T_SHINE_ON + 1`. Log 7. -/
opaque Config.tShineOffExtra : Nat

/-- `T_SHINE_OFF`: any duration with `T_SHINE_OFF > T_SHINE_ON` (00_scope.md R7, D15). -/
def Config.tShineOff : Nat := Config.tShineOn + Config.tShineOffExtra + 1

/-- `T_BIT` (00_scope.md R7, D15). Log 7. -/
opaque Config.tBit : Nat

/-- `T_GAP` (00_scope.md R7, D15). Log 7. -/
opaque Config.tGap : Nat

/-- One less than `EXIT_FAILURE`. Log 8. -/
opaque Config.exitFailurePred : Nat

/-- `EXIT_FAILURE`: any non-zero exit status, the same on every fatal path (00_scope.md R7, D17). -/
def Config.exitFailure : Nat := Config.exitFailurePred + 1

/-- `IN_LINE_ID[k]` (00_scope.md R7, D24). Log 9. -/
opaque Config.inLineId : Line → Nat

/-- `OUT_LINE_ID[k]` (00_scope.md R7, D24). Log 9. -/
opaque Config.outLineId : Line → Nat

/-- `QDEPTH`: the capacity of an input queue (00_scope.md R7, D9). Log 10. -/
opaque Config.qdepth : Nat

/-- The lamp levels after a failed lamp write or after the outputs are released, a fresh value each time: any value
(93_implementation_defined.md S2). Log 6. -/
opaque Config.freeLamps : Nat → LampVec

end Sys2Proof
end

