-- ==== Sys2Proof/Machine/State.lean ====
section
/-! DEFINITION. The block's state (10_state.md), the reasons a step can stop, and the state after setup (R45). -/

namespace Sys2Proof.Machine

/-- Half of a shine cycle: `h in ON, OFF` of `SHINE1(i,h)` and `SHINE2(i,h)` (40_phase_machine.md R90). -/
inductive ShineHalf where
  | on
  | off
deriving DecidableEq, Repr

/-- Half of a bit pulse: `h in HOLD, GAP` of `BIT(j,h)` (40_phase_machine.md R90). -/
inductive PulseHalf where
  | hold
  | gap
deriving DecidableEq, Repr

/-- The control state inside a phase (10_state.md R27, 40_phase_machine.md R90). -/
inductive Ctl where
  /-- Loop head: stop check, then the entry actions of the phase. -/
  | entry
  /-- The dispatcher's blocking wait. -/
  | wait
  /-- Servicing the ready lines of one wake cycle. -/
  | service
  /-- First flourish, cycle `i` of 12. -/
  | shine1 (i : Fin 12) (h : ShineHalf)
  /-- Serial transmission of result bit `j`. -/
  | bit (j : Fin 64) (h : PulseHalf)
  /-- Second flourish, cycle `i` of 12. -/
  | shine2 (i : Fin 12) (h : ShineHalf)
deriving DecidableEq, Repr

/-- The cursor's operand index, one bit: 0 or 1 (10_state.md R22). -/
inductive OperandIndex where
  | zero
  | one
deriving DecidableEq, Repr

/-- Why the block halted (60_exceptions.md R200). -/
inductive FatalReason where
  /-- A line failed to open or to be configured (R230). -/
  | setup
  /-- The wait, an edge read or a lamp write failed (R203). -/
  | io
  /-- An operation or phase outside its set; nothing raises it (R206). -/
  | invariant
deriving DecidableEq, Repr

/-- `status` (10_state.md R35). -/
inductive Status where
  | running
  | halted (r : FatalReason)
  | stopped
deriving DecidableEq, Repr

/-- A named pause duration (00_scope.md R7). -/
inductive Duration where
  | shineOn
  | shineOff
  | bit
  | gap
deriving DecidableEq, Repr

/-- The process's exit status, by name: `EXIT(0)` or `EXIT(EXIT_FAILURE)` (60_exceptions.md R207). -/
inductive ExitStatus where
  | success
  | failure
deriving DecidableEq, Repr

/-- A trace event (00_scope.md R13). -/
inductive TraceEvent where
  | lamps (v : LampVec)
  | pause (d : Duration)
  | consume (k : Line) (e : Edge)
  | divZeroLog
  | exit (c : ExitStatus)
deriving DecidableEq, Repr

/-- A call on a line handle that setup or cleanup makes (60_exceptions.md R202, R213, 70_reset_and_hazards.md R230). -/
inductive LineCall where
  | openInput (k : Line)
  | setEdgeDetection (k : Line)
  | openOutput (k : Line)
  | closeInput (k : Line)
  | closeOutput (k : Line)
deriving DecidableEq, Repr

/-- An edge event the environment appends to `q[line]` (20_memory.md R55). -/
structure Arrival where
  line : Line
  edge : Edge
deriving DecidableEq, Repr

/-- The machine's state: the tuple of 10_state.md R20, then the model's own fields (INVENTORY.md, State). -/
structure State where
  /-- R26. -/
  phase : Phase
  /-- R27. -/
  ctl : Ctl
  /-- `operand[0]`, R21. -/
  operand0 : Word
  /-- `operand[1]`, R21. -/
  operand1 : Word
  /-- R22. -/
  cur : OperandIndex
  /-- R23: 7 bits, holding 0..64 in every reachable state. -/
  bidx : BitVec 7
  /-- R24. -/
  op : BitVec 2
  /-- R25. -/
  result : Word
  /-- R29. -/
  keep : Bool
  /-- The ready set `S`, R30. -/
  ready : Lanes Bool
  /-- R33. -/
  lamps : LampVec
  /-- The input queues, oldest event first, R32. -/
  q : Lanes (List Edge)
  /-- R31. -/
  stop : Bool
  /-- The input lines in `acquired`, R34. -/
  acquiredIn : Lanes Bool
  /-- The output lines in `acquired`, R34. -/
  acquiredOut : Lanes Bool
  /-- R35. -/
  status : Status
  /-- Model's own: the observation so far, oldest event first (00_scope.md R13). Log 16. -/
  trace : List TraceEvent
  /-- Model's own: the handle calls so far, oldest first (60_exceptions.md R202). Log 16. -/
  calls : List LineCall
  /-- Model's own: what the environment will append before each coming step (20_memory.md R55). Log 2. -/
  arrivals : List (List Arrival)
  /-- Model's own: whether each coming fallible primitive fails (60_exceptions.md R203); past its end none does. Log 1. -/
  draws : List Bool
  /-- Model's own: how many free values have been taken (93_implementation_defined.md S2). Log 6. -/
  free : Nat
deriving DecidableEq, Repr

/-- Why a step has no next state. -/
inductive Fault where
  /-- The step function, asked for a step of a HALTED or STOPPED block: no rule has a step from there (R204). Safe. -/
  | terminated
  /-- The step function, in a pair of phase and control state that the table of R90 does not list. No run reaches one.
  Safe. Log 14. -/
  | noRule
  /-- The step function, at SERVICE with a line of `S` whose queue is empty. No run reaches it. Safe. Log 14. -/
  | noPendingEvent
deriving DecidableEq, Repr

/-- Why an instruction has no meaning. -/
inductive Refusal where
  /-- `exec`, for a row of the opcode table without a meaning in the model; no arm raises it. Safe. -/
  | notModelled (mnemonic : String)
deriving DecidableEq, Repr

/-- The machine after a successful setup, before the first step of the loop (10_state.md R45, 70_reset_and_hazards.md
R231). DESIGN CHOICE (unsafe, log 4): the registers R45 leaves unspecified hold the values R45 says the model takes;
the environment's tapes are empty (log 1, log 2); LAMP_INIT is open (log 5). -/
def State.reset : State where
  phase := .firstOperandInput
  ctl := .entry
  operand0 := 0
  operand1 := 0
  cur := .zero
  bidx := 0
  op := 0
  result := 0
  keep := true
  ready := ⟨false, false, false, false⟩
  lamps := Config.lampInit
  q := ⟨[], [], [], []⟩
  stop := false
  acquiredIn := ⟨true, true, true, true⟩
  acquiredOut := ⟨true, true, true, true⟩
  status := .running
  trace := []
  calls := [.openInput .l0, .setEdgeDetection .l0, .openInput .l1, .setEdgeDetection .l1,
    .openInput .l2, .setEdgeDetection .l2, .openInput .l3, .setEdgeDetection .l3,
    .openOutput .l0, .openOutput .l1, .openOutput .l2, .openOutput .l3]
  arrivals := []
  draws := []
  free := 0

end Sys2Proof.Machine
end

