-- ==== Sys2Proof/Machine/Ops.lean ====
section
/-! DEFINITION. The shared operations: the boundary primitives (00_scope.md R11), the fatal path (60_exceptions.md R201,
R202), the environment's appends (20_memory.md R55), and the phase write (40_phase_machine.md R97). -/

namespace Sys2Proof.Machine

/-- `Emit(ev)`: append an event to the trace (00_scope.md R11). -/
def State.emit (s : State) (ev : TraceEvent) : State := { s with trace := s.trace ++ [ev] }

/-- `ctl <- c`. -/
def State.goto (s : State) (c : Ctl) : State := { s with ctl := c }

/-- `Pause(T)`: no state changes and it never fails; the trace shows it (00_scope.md R11, 45_output_encoder.md R188). -/
def State.pause (s : State) (d : Duration) : State := s.emit (.pause d)

/-! ### The fatal path -/

/-- The `close` calls of the cleanup: the acquired inputs, then the acquired outputs, each in index order
(60_exceptions.md R202). -/
def State.closeCalls (s : State) : List LineCall :=
  s.acquiredIn.members.map .closeInput ++ s.acquiredOut.members.map .closeOutput

/-- `Cleanup()` (60_exceptions.md R202). The lamp levels after release are a free value (93_implementation_defined.md
S2, log 6). -/
def State.cleanup (s : State) : State :=
  { s with
    calls := s.calls ++ s.closeCalls
    acquiredIn := Lanes.all false
    acquiredOut := Lanes.all false
    lamps := Config.freeLamps s.free
    free := s.free + 1 }

/-- `raise Fatal(reason)`: cleanup, halt, exit with failure; writes made earlier in the step stay (60_exceptions.md
R201). -/
def State.raiseFatal (s : State) (r : FatalReason) : State :=
  ({ s.cleanup with status := .halted r } : State).emit (.exit .failure)

/-- The graceful stop (60_exceptions.md R205). HALTED and STOPPED have no return (R204). -/
def State.gracefulStop (s : State) : State :=
  ({ s.cleanup with status := .stopped } : State).emit (.exit .success)

/-! ### Fallible primitives -/

/-- How far a step has come: it goes on, or a primitive failed and the rest of the step is abandoned
(60_exceptions.md R201). -/
inductive Flow where
  | ongoing (s : State)
  | halted (s : State)
deriving DecidableEq, Repr

/-- Go on with `f` unless the step was abandoned. -/
def Flow.andThen (x : Flow) (f : State → Flow) : Flow :=
  match x with
  | .ongoing s => f s
  | .halted s => .halted s

/-- The state a step ends in, abandoned or not. -/
def Flow.state : Flow → State
  | .ongoing s => s
  | .halted s => s

/-- The environment's draw for one fallible primitive: it fails with `r`, or the step goes on (60_exceptions.md R203,
D16). Past the end of the tape no primitive fails (DESIGN CHOICE, unsafe, log 1). -/
def attempt (r : FatalReason) (s : State) : Flow :=
  match s.draws with
  | [] => .ongoing s
  | false :: ds => .ongoing { s with draws := ds }
  | true :: ds => .halted (({ s with draws := ds } : State).raiseFatal r)

/-- `Lamps(v)`: all four lamps in one update, or Fatal(IO) (00_scope.md R11, 20_memory.md R54). -/
def writeLamps (v : LampVec) (s : State) : Flow :=
  (attempt .io s).andThen fun t => .ongoing (({ t with lamps := v } : State).emit (.lamps v))

/-- `Ready()`: sample the lines with a pending event into `S`, or Fatal(IO) (00_scope.md R11, 41_dispatcher.md R112). -/
def sampleReady (s : State) : Flow :=
  (attempt .io s).andThen fun t => .ongoing { t with ready := t.q.pending }

/-- `e <- Pop(k)` and `Emit(CONSUME(k, e))`: the oldest event of `q[k]`, which is `e`, leaves the queue, or Fatal(IO)
(00_scope.md R11, 41_dispatcher.md R113). -/
def pop (k : Line) (e : Edge) (s : State) : Flow :=
  (attempt .io s).andThen fun t => .ongoing (({ t with q := t.q.set k (t.q.get k).tail } : State).emit (.consume k e))

/-! ### Servicing a line -/

/-- `S <- S \ k` (41_dispatcher.md R114). -/
def State.serviced (s : State) (k : Line) : State := { s with ready := s.ready.erase k }

/-- One servicing step: Service(k) with the action the dispatch word selects, then `S <- S \ k` (41_dispatcher.md R113,
R114). A failing primitive abandons the rest. -/
def service (k : Line) (e : Edge) (action : State → Flow) (s : State) : Host.Outcome State Fault Refusal :=
  .next (((pop k e s).andThen action).andThen fun t => .ongoing (t.serviced k)).state

/-- The action of an event that invokes no callback (41_dispatcher.md R113). -/
def noAction (s : State) : Flow := .ongoing s

/-! ### Phases -/

/-- The next-phase function (40_phase_machine.md R97). -/
def nextPhase : Phase → Phase
  | .firstOperandInput => .secondOperandInput
  | .secondOperandInput => .operationSelection
  | .operationSelection => .resultDisplay
  | .resultDisplay => .firstOperandInput

/-- The phase handler returns: `phase <- next(phase)`, `ctl <- ENTRY` (40_phase_machine.md R96, R97). -/
def State.exitPhase (s : State) : State := { s with phase := nextPhase s.phase, ctl := .entry }

/-! ### The environment -/

/-- The environment appends an event to the tail of `q[k]` (20_memory.md R55). -/
def State.append (s : State) (a : Arrival) : State :=
  { s with q := s.q.set a.line (s.q.get a.line ++ [a.edge]) }

/-- The environment reports an event to a queue of capacity QDEPTH: an event that finds it full is dropped, which is as
if it had never been appended (00_scope.md R7, D9). Log 10. -/
def State.offer (s : State) (a : Arrival) : State :=
  if (s.q.get a.line).length < Config.qdepth then s.append a else s

/-- Append the events of a batch in order (20_memory.md R55, R57). -/
def State.appendAll : State → List Arrival → State
  | s, [] => s
  | s, a :: as => (s.append a).appendAll as

/-- The environment's turn between two steps: the next batch of the tape arrives (00_scope.md R12, 20_memory.md R55).
Log 2. -/
def deliver (s : State) : State :=
  match s.arrivals with
  | [] => s
  | batch :: rest => ({ s with arrivals := rest } : State).appendAll batch

end Sys2Proof.Machine
end

