-- ==== Sys2Proof/Machine/Alu.lean ====
section
/-! DEFINITION. The 64-bit unsigned ALU (44_alu.md). It reads `operand[0]`, `operand[1]` and `op` and writes `result`. -/

namespace Sys2Proof.Machine

/-- `ADD(a, b) = (a + b) mod 2^64` (44_alu.md R166). -/
def addResult (a b : Word) : Word := a + b

/-- `SUB(a, b) = (a - b) mod 2^64` (44_alu.md R167). -/
def subResult (a b : Word) : Word := a - b

/-- `MUL(a, b) = (a * b) mod 2^64` (44_alu.md R168). -/
def mulResult (a b : Word) : Word := a * b

/-- `DIV(a, b)`: 0 when `b = 0`, else the unsigned floor quotient (44_alu.md R169). PRESUMED (unsafe, log 11): the floor
of an inexact quotient is the spec's general knowledge (93_implementation_defined.md G1). -/
def divResult (a b : Word) : Word :=
  if b = 0 then 0 else BitVec.ofNat 64 (a.toNat / b.toNat)

/-- `Calculate(a, b, op)` as a pure function (44_alu.md R165). -/
def calculate (a b : Word) (op : BitVec 2) : Word :=
  match op.getLsbD 1, op.getLsbD 0 with
  | false, false => addResult a b
  | false, true => subResult a b
  | true, false => mulResult a b
  | true, true => divResult a b

/-- `result <- w` (10_state.md R25). -/
def State.setResult (s : State) (w : Word) : State := { s with result := w }

/-- ADD (44_alu.md R166). -/
def execAdd (s : State) : Host.Outcome State Fault Refusal :=
  .next (s.setResult (addResult s.operand0 s.operand1))

/-- SUBTRACT (44_alu.md R167). -/
def execSub (s : State) : Host.Outcome State Fault Refusal :=
  .next (s.setResult (subResult s.operand0 s.operand1))

/-- MULTIPLY (44_alu.md R168). -/
def execMul (s : State) : Host.Outcome State Fault Refusal :=
  .next (s.setResult (mulResult s.operand0 s.operand1))

/-- DIVIDE (44_alu.md R169): a division by zero is logged in the trace and is no fault. -/
def execDiv (s : State) : Host.Outcome State Fault Refusal :=
  let logged := if s.operand1 = 0 then s.emit .divZeroLog else s
  .next (logged.setResult (divResult s.operand0 s.operand1))

end Sys2Proof.Machine
end

