-- ==== Sys2Proof/Machine/Flags.lean ====
section
/-! DEFINITION. The block's only flag, `keep` (10_state.md R29, R37). -/

namespace Sys2Proof.Machine

/-- `keep <- keep AND ret` (41_dispatcher.md R113, R115). -/
def State.mergeKeep (s : State) (ret : Bool) : State := { s with keep := s.keep && ret }

/-- `StartDispatch()`: `keep <- 1`, `ctl <- WAIT` (41_dispatcher.md R110). -/
def State.startDispatch (s : State) : State := { s with keep := true, ctl := .wait }

/-- Invoke a callback and merge its return value `ret` into `keep` (41_dispatcher.md R113, R115). A callback whose
primitive fails returns nothing (42_edit_buffer.md R130). -/
def invoke (ret : Bool) (body : State → Flow) (s : State) : Flow :=
  (body s).andThen fun t => .ongoing (t.mergeKeep ret)

end Sys2Proof.Machine
end

