-- ==== Sys2Proof/Machine/Operands.lean ====
section
/-! DEFINITION. The operand pair and the lamp renderings of it (10_state.md R21, 42_edit_buffer.md R136, R137,
43_op_selector.md R154, 45_output_encoder.md R180). -/

namespace Sys2Proof.Machine

/-- `operand[i]` (10_state.md R21). -/
def State.operand (s : State) : OperandIndex → Word
  | .zero => s.operand0
  | .one => s.operand1

/-- `operand[i] <- w` (10_state.md R21). -/
def State.setOperand (s : State) (i : OperandIndex) (w : Word) : State :=
  match i with
  | .zero => { s with operand0 := w }
  | .one => { s with operand1 := w }

/-- The lamp vector `Nibble(v)` shows: bit 3 on lamp 0 down to bit 0 on lamp 3 (45_output_encoder.md R180). -/
def nibble (v : BitVec 4) : LampVec := ⟨v.getLsbD 3, v.getLsbD 2, v.getLsbD 1, v.getLsbD 0⟩

/-- The window's low end `lo = max(bidx - 4, 0)` (42_edit_buffer.md R136). -/
def windowLow (bidx : BitVec 7) : Nat := bidx.toNat - 4

/-- The window's value `(operand[cur] >> lo) & 0xF` (42_edit_buffer.md R137). -/
def windowValue (w : Word) (bidx : BitVec 7) : BitVec 4 := (w >>> windowLow bidx).setWidth 4

/-- What RenderOperand writes to the lamps (42_edit_buffer.md R137). -/
def State.operandLamps (s : State) : LampVec := nibble (windowValue (s.operand s.cur) s.bidx)

/-- `RenderOperand()` (42_edit_buffer.md R137). -/
def renderOperand (s : State) : Flow := writeLamps s.operandLamps s

/-- What RenderOp writes to the lamps: `Nibble(zext_4(op))` (43_op_selector.md R154). -/
def opLamps (op : BitVec 2) : LampVec := nibble (op.setWidth 4)

/-- `RenderOp()` (43_op_selector.md R154). -/
def renderOp (s : State) : Flow := writeLamps (opLamps s.op) s

/-- All four lamps off: `[0,0,0,0]` (30_encoding.md R75). -/
def lampsOff : LampVec := ⟨false, false, false, false⟩

/-- All four lamps on: `[1,1,1,1]` (30_encoding.md R75). -/
def lampsOn : LampVec := ⟨true, true, true, true⟩

/-- Pattern A, a result bit 1: `[1,1,0,0]` (30_encoding.md R75). -/
def patternA : LampVec := ⟨true, true, false, false⟩

/-- Pattern B, a result bit 0: `[0,0,1,1]` (30_encoding.md R75). -/
def patternB : LampVec := ⟨false, false, true, true⟩

/-- The pattern of a result bit (45_output_encoder.md R184). -/
def bitPattern (b : Bool) : LampVec :=
  match b with
  | true => patternA
  | false => patternB

end Sys2Proof.Machine
end

