-- ==== Sys2Proof/Machine/EditBuffer.lean ====
section
/-! DEFINITION. The operand-input commands (42_edit_buffer.md). The operand phase a word names selects no other effect:
the commands act on `operand[cur]` (41_dispatcher.md R111). -/

namespace Sys2Proof.Machine

/-- APPEND0's edit: the cursor moves on while it is below 64 (42_edit_buffer.md R132). -/
def State.appendZero (s : State) : State :=
  if s.bidx.toNat < 64 then { s with bidx := s.bidx + 1 } else s

/-- APPEND1's edit: set bit `bidx`, then move the cursor on, while it is below 64 (42_edit_buffer.md R133). -/
def State.appendOne (s : State) : State :=
  if s.bidx.toNat < 64 then
    { s.setOperand s.cur (s.operand s.cur ||| (1#64 <<< s.bidx.toNat)) with bidx := s.bidx + 1 }
  else s

/-- BACKSPACE's edit: move the cursor back and clear the bit now there, while it is above 0 (42_edit_buffer.md R134). -/
def State.backspace (s : State) : State :=
  if 0 < s.bidx.toNat then
    { s.setOperand s.cur (s.operand s.cur &&& ~~~(1#64 <<< (s.bidx - 1).toNat)) with bidx := s.bidx - 1 }
  else s

/-- CONFIRM (42_edit_buffer.md R131): no mutation, returns false. -/
def execConfirm (s : State) : Host.Outcome State Fault Refusal :=
  service .l0 .falling (invoke false noAction) s

/-- APPEND0 (42_edit_buffer.md R132). -/
def execAppend0 (s : State) : Host.Outcome State Fault Refusal :=
  service .l1 .falling (invoke true fun t => renderOperand t.appendZero) s

/-- APPEND1 (42_edit_buffer.md R133). -/
def execAppend1 (s : State) : Host.Outcome State Fault Refusal :=
  service .l2 .falling (invoke true fun t => renderOperand t.appendOne) s

/-- BACKSPACE (42_edit_buffer.md R134). -/
def execBackspace (s : State) : Host.Outcome State Fault Refusal :=
  service .l3 .falling (invoke true fun t => renderOperand t.backspace) s

/-- RELEASE_OPI (42_edit_buffer.md R135): the event is consumed, no callback is invoked. -/
def execReleaseOpi (k : Line) (s : State) : Host.Outcome State Fault Refusal :=
  service k .rising noAction s

end Sys2Proof.Machine
end

