-- ==== Sys2Proof/Machine/OpSelector.lean ====
section
/-! DEFINITION. The OperationSelection commands (43_op_selector.md). -/

namespace Sys2Proof.Machine

/-- CYCLE's edit: `op <- (op + 1) mod 4` (43_op_selector.md R151). -/
def State.cycleOp (s : State) : State := { s with op := s.op + 1 }

/-- CONFIRM_OP (43_op_selector.md R150): no mutation, returns false. -/
def execConfirmOp (s : State) : Host.Outcome State Fault Refusal :=
  service .l0 .falling (invoke false noAction) s

/-- CYCLE (43_op_selector.md R151). -/
def execCycle (s : State) : Host.Outcome State Fault Refusal :=
  service .l1 .falling (invoke true fun t => renderOp t.cycleOp) s

/-- UNBOUND (43_op_selector.md R152): a press on an unbound line is consumed and lost. -/
def execUnbound (k : Line) (s : State) : Host.Outcome State Fault Refusal :=
  service k .falling noAction s

/-- RELEASE_OPS (43_op_selector.md R153): the event is consumed, no callback is invoked. -/
def execReleaseOps (k : Line) (s : State) : Host.Outcome State Fault Refusal :=
  service k .rising noAction s

end Sys2Proof.Machine
end

