-- ==== Sys2Proof/Machine/OutputEncoder.lean ====
section
/-! DEFINITION. The ResultDisplay steps: shine flourishes and serial transmission (45_output_encoder.md). -/

namespace Sys2Proof.Machine

/-- One encoder step: a lamp write, its pause, then `after` (45_output_encoder.md R182). A failing write abandons the pause
and what follows. -/
def pulse (v : LampVec) (d : Duration) (after : State → State) (s : State) : State :=
  ((writeLamps v s).andThen fun t => .ongoing (after (t.pause d))).state

/-- The successor of `SHINE1(i, OFF)` (45_output_encoder.md R182). -/
def afterShine1 (i : Fin 12) : Ctl :=
  if h : i.val + 1 < 12 then .shine1 ⟨i.val + 1, h⟩ .on else .bit 0 .hold

/-- The successor of `BIT(j, GAP)` (45_output_encoder.md R184). -/
def afterBit (j : Fin 64) : Ctl :=
  if h : j.val + 1 < 64 then .bit ⟨j.val + 1, h⟩ .hold else .shine2 0 .on

/-- What follows the pause of `SHINE2(i, OFF)`: the next cycle, or the wrap to FirstOperandInput (45_output_encoder.md
R183, 40_phase_machine.md R98). -/
def finishShine2 (i : Fin 12) (s : State) : State :=
  if h : i.val + 1 < 12 then s.goto (.shine2 ⟨i.val + 1, h⟩ .on) else s.exitPhase

/-- The step from a ResultDisplay control state (45_output_encoder.md R182, R183, R184). The dispatcher's control states
have none, and stay as they are. -/
def encoderStep (s : State) : State :=
  match s.ctl with
  | .shine1 i .on => pulse lampsOn .shineOn (·.goto (.shine1 i .off)) s
  | .shine1 i .off => pulse lampsOff .shineOff (·.goto (afterShine1 i)) s
  | .bit j .hold => pulse (bitPattern (s.result.getLsbD j.val)) .bit (·.goto (.bit j .gap)) s
  | .bit j .gap => pulse lampsOff .gap (·.goto (afterBit j)) s
  | .shine2 i .on => pulse lampsOn .shineOn (·.goto (.shine2 i .off)) s
  | .shine2 i .off => pulse lampsOff .shineOff (finishShine2 i) s
  | .entry => s
  | .wait => s
  | .service => s

/-- HELD (45_output_encoder.md R190): in ResultDisplay no event is popped; a pending event stays queued and nothing
changes. Log 13. -/
def execHeld (s : State) : Host.Outcome State Fault Refusal := .next s

end Sys2Proof.Machine
end

