-- ==== Sys2Proof/Machine/Dispatch.lean ====
section
/-! DEFINITION. What each instruction does: one arm per constructor, one direct call of its meaning. -/

namespace Sys2Proof.Machine

def exec (i : Instr) (s : State) : Host.Outcome State Fault Refusal :=
  match i with
  | .confirm _ => Sys2Proof.Machine.execConfirm s
  | .append0 _ => Sys2Proof.Machine.execAppend0 s
  | .append1 _ => Sys2Proof.Machine.execAppend1 s
  | .backspace _ => Sys2Proof.Machine.execBackspace s
  | .releaseOpi _ k => Sys2Proof.Machine.execReleaseOpi k s
  | .confirmOp => Sys2Proof.Machine.execConfirmOp s
  | .cycle => Sys2Proof.Machine.execCycle s
  | .unbound k => Sys2Proof.Machine.execUnbound k s
  | .releaseOps k => Sys2Proof.Machine.execReleaseOps k s
  | .held _ _ => Sys2Proof.Machine.execHeld s
  | .add => Sys2Proof.Machine.execAdd s
  | .sub => Sys2Proof.Machine.execSub s
  | .mul => Sys2Proof.Machine.execMul s
  | .div => Sys2Proof.Machine.execDiv s

end Sys2Proof.Machine
end

