-- ==== Sys2Proof/WellFormed.lean ====
section
/-! DEFINITION. Which instructions a word of 30_encoding.md R67 or R71 can stand for. -/

namespace Sys2Proof

/-- The phases whose dispatch words have `D[4] = 0`: the two operand phases (30_encoding.md R67). -/
def Phase.isOperand : Phase → Bool
  | .firstOperandInput => true
  | .secondOperandInput => true
  | .operationSelection => false
  | .resultDisplay => false

/-- The lines OperationSelection leaves unbound: 2 and 3 (30_encoding.md R68). -/
def Line.isUnboundOps : Line → Bool
  | .l0 => false
  | .l1 => false
  | .l2 => true
  | .l3 => true

/-- `i` is a value that one of the 32 dispatch words or 4 ALU words stands for: an operand-phase row names an operand
phase, and UNBOUND names line 2 or 3. -/
def Instr.wellFormed : Instr → Bool
  | .confirm p => p.isOperand
  | .append0 p => p.isOperand
  | .append1 p => p.isOperand
  | .backspace p => p.isOperand
  | .releaseOpi p _ => p.isOperand
  | .confirmOp => true
  | .cycle => true
  | .unbound k => k.isUnboundOps
  | .releaseOps _ => true
  | .held _ _ => true
  | .add => true
  | .sub => true
  | .mul => true
  | .div => true

end Sys2Proof
end

