-- ==== Sys2Proof/Decode.lean ====
section
/-! DEFINITION. The two word formats, their decoder and their encoder (30_encoding.md R65 to R73), and the event words of
press scripts (R77). -/

namespace Sys2Proof

/-! ### Field codes -/

/-- Phase code, 2 bits (30_encoding.md R69). -/
def Phase.code : Phase → BitVec 2
  | .firstOperandInput => 0
  | .secondOperandInput => 1
  | .operationSelection => 2
  | .resultDisplay => 3

/-- The phase a 2-bit code names; every code is live (30_encoding.md R69, R72). -/
def Phase.ofCode (b : BitVec 2) : Phase :=
  match b.getLsbD 1, b.getLsbD 0 with
  | false, false => .firstOperandInput
  | false, true => .secondOperandInput
  | true, false => .operationSelection
  | true, true => .resultDisplay

/-- Line code, 2 bits: the line's index (30_encoding.md R65). -/
def Line.code : Line → BitVec 2
  | .l0 => 0
  | .l1 => 1
  | .l2 => 2
  | .l3 => 3

/-- The line a 2-bit code names (30_encoding.md R65). -/
def Line.ofCode (b : BitVec 2) : Line :=
  match b.getLsbD 1, b.getLsbD 0 with
  | false, false => .l0
  | false, true => .l1
  | true, false => .l2
  | true, true => .l3

/-- Edge code, 1 for FALLING and 0 for RISING (30_encoding.md R65). -/
def Edge.code : Edge → BitVec 1
  | .rising => 0
  | .falling => 1

/-- The edge an edge bit names (30_encoding.md R65). -/
def Edge.ofBit : Bool → Edge
  | false => .rising
  | true => .falling

/-! ### Event and dispatch words -/

/-- Event word `E = line : fall`, 3 bits (30_encoding.md R65). -/
def eventWord (k : Line) (e : Edge) : BitVec 3 := k.code ++ e.code

/-- The line and edge of an event word (30_encoding.md R65). -/
def decodeEvent (w : BitVec 3) : Line × Edge :=
  (Line.ofCode (w.extractLsb' 1 2), Edge.ofBit (w.getLsbD 0))

/-- Dispatch word `D = phase : E`, 5 bits (30_encoding.md R66). -/
def dispatchWord (p : Phase) (k : Line) (e : Edge) : BitVec 5 := p.code ++ eventWord k e

/-! ### Decoder -/

/-- The formats of opcode_table.json. -/
inductive Format where
  /-- The 5-bit dispatch word (30_encoding.md R66). -/
  | dispatch
  /-- The 2-bit ALU word (30_encoding.md R71). -/
  | alu
deriving DecidableEq, Repr

/-- A word of one of the two formats. -/
inductive CodeWord where
  | dispatch (d : BitVec 5)
  | alu (o : BitVec 2)
deriving DecidableEq, Repr

/-- The row of 30_encoding.md R67 for a phase, line and edge. -/
def decodeFields : Phase → Edge → Line → Instr
  | .firstOperandInput, .falling, .l0 => .confirm .firstOperandInput
  | .firstOperandInput, .falling, .l1 => .append0 .firstOperandInput
  | .firstOperandInput, .falling, .l2 => .append1 .firstOperandInput
  | .firstOperandInput, .falling, .l3 => .backspace .firstOperandInput
  | .firstOperandInput, .rising, k => .releaseOpi .firstOperandInput k
  | .secondOperandInput, .falling, .l0 => .confirm .secondOperandInput
  | .secondOperandInput, .falling, .l1 => .append0 .secondOperandInput
  | .secondOperandInput, .falling, .l2 => .append1 .secondOperandInput
  | .secondOperandInput, .falling, .l3 => .backspace .secondOperandInput
  | .secondOperandInput, .rising, k => .releaseOpi .secondOperandInput k
  | .operationSelection, .falling, .l0 => .confirmOp
  | .operationSelection, .falling, .l1 => .cycle
  | .operationSelection, .falling, .l2 => .unbound .l2
  | .operationSelection, .falling, .l3 => .unbound .l3
  | .operationSelection, .rising, k => .releaseOps k
  | .resultDisplay, e, k => .held k e

/-- The dispatch map, total on all 32 words (30_encoding.md R66, R67). -/
def decodeDispatch (d : BitVec 5) : Instr :=
  decodeFields (Phase.ofCode (d.extractLsb' 3 2)) (Edge.ofBit (d.getLsbD 0)) (Line.ofCode (d.extractLsb' 1 2))

/-- The operation an `op` code names (30_encoding.md R70, R71). -/
def decodeAlu (o : BitVec 2) : Instr :=
  match o.getLsbD 1, o.getLsbD 0 with
  | false, false => .add
  | false, true => .sub
  | true, false => .mul
  | true, true => .div

/-- The instruction a word stands for: no word is illegal (30_encoding.md R72). -/
def decode : CodeWord → Instr
  | .dispatch d => decodeDispatch d
  | .alu o => decodeAlu o

/-- Why a number is no word of the block. Nothing in the machine raises these: a `BitVec` always is a word. Safe. -/
inductive DecodeReject where
  /-- A bit above the format's width is set. -/
  | tooWide (f : Format) (w : Nat)
  /-- No format of opcode_table.json has this many bits. -/
  | noFormat (nbits : Nat)
deriving DecidableEq, Repr

/-- How many bits a word of the format has (opcode_table.json, `width`). -/
def Format.width : Format → Nat
  | .dispatch => 5
  | .alu => 2

/-- Decode a number as a word of the given format; bits above the width must be 0. -/
def decodeRaw (f : Format) (w : Nat) : Except DecodeReject Instr :=
  if w < 2 ^ f.width then
    match f with
    | .dispatch => .ok (decode (.dispatch (BitVec.ofNat 5 w)))
    | .alu => .ok (decode (.alu (BitVec.ofNat 2 w)))
  else .error (.tooWide f w)

/-- Which format a row of `nbits` bits has: 2 bits an ALU word, 5 bits, or the byte 5 bits are rounded up to, a dispatch
word. DESIGN CHOICE (unsafe, log 12): one byte can also hold an ALU word, and nothing in the word tells the two formats
apart; a byte is read as the dispatch word the dispatcher forms. -/
def formatOf (nbits : Nat) : Except DecodeReject Format :=
  if nbits = 2 then .ok .alu
  else if nbits = 5 then .ok .dispatch
  else if nbits = 8 then .ok .dispatch
  else .error (.noFormat nbits)

/-- Decode the `nbits`-bit word `w` of an opcode-table row, refusing by name. -/
def decodeSized (nbits w : Nat) : Except DecodeReject Instr :=
  match formatOf nbits with
  | .ok f => decodeRaw f w
  | .error r => .error r

/-- The instruction the decoder reads from an opcode-table word. -/
def decodeTableWord (nbits w : Nat) : Option Instr :=
  match decodeSized nbits w with
  | .ok i => some i
  | .error _ => none

/-! ### Encoder -/

/-- The word of a well-formed instruction, from the tables of 30_encoding.md R67 and R70. -/
def encode : Instr → CodeWord
  | .confirm p => .dispatch (p.code ++ 0b001#3)
  | .append0 p => .dispatch (p.code ++ 0b011#3)
  | .append1 p => .dispatch (p.code ++ 0b101#3)
  | .backspace p => .dispatch (p.code ++ 0b111#3)
  | .releaseOpi p k => .dispatch (p.code ++ (k.code ++ 0b0#1))
  | .confirmOp => .dispatch 0b10001#5
  | .cycle => .dispatch 0b10011#5
  | .unbound k => .dispatch (0b10#2 ++ (k.code ++ 0b1#1))
  | .releaseOps k => .dispatch (0b10#2 ++ (k.code ++ 0b0#1))
  | .held k e => .dispatch (0b11#2 ++ (k.code ++ e.code))
  | .add => .alu 0b00#2
  | .sub => .alu 0b01#2
  | .mul => .alu 0b10#2
  | .div => .alu 0b11#2

/-- The format of a word. -/
def CodeWord.format : CodeWord → Format
  | .dispatch _ => .dispatch
  | .alu _ => .alu

/-- The bits of a word as a number, bit 0 the least significant. -/
def CodeWord.bits : CodeWord → Nat
  | .dispatch d => d.toNat
  | .alu o => o.toNat

/-! ### The opcode table's rows -/

/-- A row of opcode_table.json: a word `w` of the format selects it when `w &&& mask = pattern`. -/
structure OpcodeRow where
  mnemonic : String
  format : Format
  pattern : Nat
  mask : Nat
deriving DecidableEq, Repr

/-- The row of opcode_table.json an instruction belongs to (30_encoding.md R67, R71). -/
def Instr.row : Instr → OpcodeRow
  | .confirm _ => ⟨"CONFIRM", .dispatch, 0x01, 0x17⟩
  | .append0 _ => ⟨"APPEND0", .dispatch, 0x03, 0x17⟩
  | .append1 _ => ⟨"APPEND1", .dispatch, 0x05, 0x17⟩
  | .backspace _ => ⟨"BACKSPACE", .dispatch, 0x07, 0x17⟩
  | .releaseOpi _ _ => ⟨"RELEASE_OPI", .dispatch, 0x00, 0x11⟩
  | .confirmOp => ⟨"CONFIRM_OP", .dispatch, 0x11, 0x1F⟩
  | .cycle => ⟨"CYCLE", .dispatch, 0x13, 0x1F⟩
  | .unbound _ => ⟨"UNBOUND", .dispatch, 0x15, 0x1D⟩
  | .releaseOps _ => ⟨"RELEASE_OPS", .dispatch, 0x10, 0x19⟩
  | .held _ _ => ⟨"HELD", .dispatch, 0x18, 0x18⟩
  | .add => ⟨"ADD", .alu, 0x0, 0x3⟩
  | .sub => ⟨"SUB", .alu, 0x1, 0x3⟩
  | .mul => ⟨"MUL", .alu, 0x2, 0x3⟩
  | .div => ⟨"DIV", .alu, 0x3, 0x3⟩

/-- The table, in its order. -/
def opcodeTable : List OpcodeRow :=
  [Instr.row (.confirm .firstOperandInput), Instr.row (.append0 .firstOperandInput),
    Instr.row (.append1 .firstOperandInput), Instr.row (.backspace .firstOperandInput),
    Instr.row (.releaseOpi .firstOperandInput .l0), Instr.row .confirmOp, Instr.row .cycle, Instr.row (.unbound .l2),
    Instr.row (.releaseOps .l0), Instr.row (.held .l0 .rising), Instr.row .add, Instr.row .sub, Instr.row .mul,
    Instr.row .div]

/-- The word selects the row: `(D & mask) = match` (30_encoding.md R67). -/
def OpcodeRow.selects (r : OpcodeRow) (f : Format) (w : Nat) : Bool :=
  (r.format == f) && (w &&& r.mask == r.pattern)

/-! ### Event words of a script -/

/-- A press script's encoding: its event words in append order (30_encoding.md R77). -/
def encodeEvents (es : List (Line × Edge)) : List (BitVec 3) := es.map fun x => eventWord x.1 x.2

/-- The events of a list of event words (30_encoding.md R65, R77). -/
def decodeEvents (ws : List (BitVec 3)) : List (Line × Edge) := ws.map decodeEvent

end Sys2Proof
end

