-- ==== Sys2Proof/Machine/Dispatcher.lean ====
section
/-! DEFINITION. The event dispatcher: binding table, wait and wake, end of a wake cycle (41_dispatcher.md). -/

namespace Sys2Proof.Machine

/-- A callback role (41_dispatcher.md R111). -/
inductive Role where
  | confirm
  | append0
  | append1
  | backspace
  | confirmOp
  | cycle
deriving DecidableEq, Repr

/-- The binding table, a function of `phase` (10_state.md R28, 41_dispatcher.md R111); `none` is `null`. -/
def binding : Phase → Line → Option Role
  | .firstOperandInput, .l0 => some .confirm
  | .firstOperandInput, .l1 => some .append0
  | .firstOperandInput, .l2 => some .append1
  | .firstOperandInput, .l3 => some .backspace
  | .secondOperandInput, .l0 => some .confirm
  | .secondOperandInput, .l1 => some .append0
  | .secondOperandInput, .l2 => some .append1
  | .secondOperandInput, .l3 => some .backspace
  | .operationSelection, .l0 => some .confirmOp
  | .operationSelection, .l1 => some .cycle
  | .operationSelection, .l2 => none
  | .operationSelection, .l3 => none
  | .resultDisplay, _ => none

/-- What a callback returns: false advances the phase (42_edit_buffer.md R131 to R134, 43_op_selector.md R150, R151). -/
def Role.returns : Role → Bool
  | .confirm => false
  | .append0 => true
  | .append1 => true
  | .backspace => true
  | .confirmOp => false
  | .cycle => true

/-- What a callback does before it returns (42_edit_buffer.md R131 to R134, 43_op_selector.md R150, R151). -/
def Role.body : Role → State → Flow
  | .confirm => noAction
  | .append0 => fun s => renderOperand s.appendZero
  | .append1 => fun s => renderOperand s.appendOne
  | .backspace => fun s => renderOperand s.backspace
  | .confirmOp => noAction
  | .cycle => fun s => renderOp s.cycleOp

/-- Service(k) read straight from the pseudocode, through the binding table (41_dispatcher.md R113, R114). The machine
runs the decoded instruction; this is the reference it is compared with. -/
def serviceByBinding (p : Phase) (k : Line) (e : Edge) (s : State) : Host.Outcome State Fault Refusal :=
  match e, binding p k with
  | .rising, _ => service k .rising noAction s
  | .falling, none => service k .falling noAction s
  | .falling, some r => service k .falling (invoke r.returns r.body) s

/-- The four queues are empty (41_dispatcher.md R112). -/
def State.queuesEmpty (s : State) : Bool := (s.q.pending.lowest).isNone

/-- A step at WAIT: hold while every queue is empty, else wake with a snapshot of the ready lines (41_dispatcher.md R112).
DEDUCED (safe, log 3): the hold is a step that leaves the block as it is. -/
def waitStep (s : State) : State :=
  if s.queuesEmpty then s
  else ((sampleReady s).andThen fun t => .ongoing (t.goto .service)).state

/-- The end of a wake cycle: wait again, or leave the phase (41_dispatcher.md R116). -/
def endCycle (s : State) : State := if s.keep then s.goto .wait else s.exitPhase

end Sys2Proof.Machine
end

