-- ==== Sys2Proof/Machine/PhaseMachine.lean ====
section
/-! DEFINITION. The phase state machine (40_phase_machine.md): entry actions, and which action a step takes. -/

namespace Sys2Proof.Machine

/-- Turn all lamps off, then start the dispatcher (40_phase_machine.md R92, R93, R94). -/
def startPhase (s : State) : State :=
  ((writeLamps lampsOff s).andThen fun t => .ongoing t.startDispatch).state

/-- FirstOperandInput entry (40_phase_machine.md R92). -/
def enterFirst (s : State) : State := startPhase { s with cur := .zero, bidx := 0, operand0 := 0 }

/-- SecondOperandInput entry (40_phase_machine.md R93). -/
def enterSecond (s : State) : State := startPhase { s with cur := .one, bidx := 0, operand1 := 0 }

/-- OperationSelection entry (40_phase_machine.md R94). -/
def enterSelection (s : State) : State := startPhase { s with op := 0 }

/-- What a step does. -/
inductive Action where
  /-- Run an instruction, then what `finish` adds. -/
  | run (i : Instr)
  /-- Take a step of the block's own, to `t`. -/
  | own (t : State)
  /-- There is no step. -/
  | stuck (f : Fault)
deriving DecidableEq, Repr

/-- The loop head: stop check, then the entry action of the phase (40_phase_machine.md R91). ResultDisplay runs the ALU
word that `op` holds (R95, 30_encoding.md R71). -/
def loopHead (s : State) : Action :=
  if s.stop then .own s.gracefulStop
  else
    match s.phase with
    | .firstOperandInput => .own (enterFirst s)
    | .secondOperandInput => .own (enterSecond s)
    | .operationSelection => .own (enterSelection s)
    | .resultDisplay => .run (decode (.alu s.op))

/-- A step at SERVICE: the lowest line of `S`, by the dispatch word of its oldest event, or the end of the wake cycle
(41_dispatcher.md R113, R114, R116). -/
def serviceAction (s : State) : Action :=
  match s.ready.lowest with
  | none => .own (endCycle s)
  | some k =>
    match s.q.get k with
    | [] => .stuck .noPendingEvent
    | e :: _ => .run (decode (.dispatch (dispatchWord s.phase k e)))

/-- The oldest event of the lowest-numbered line that has one. -/
def firstPending (q : Lanes (List Edge)) : Option (Line × Edge) :=
  match q.pending.lowest with
  | none => none
  | some k =>
    match q.get k with
    | [] => none
    | e :: _ => some (k, e)

/-- A step of ResultDisplay: the encoder's own step; an event that is pending is HELD (45_output_encoder.md R190).
Log 13. -/
def displayAction (s : State) : Action :=
  match firstPending s.q with
  | none => .own (encoderStep s)
  | some (k, e) => .run (decode (.dispatch (dispatchWord .resultDisplay k e)))

/-- The action of a control state, in the phases the table of 40_phase_machine.md R90 lists for it. -/
def phaseAction (s : State) : Action :=
  match s.ctl, s.phase with
  | .entry, _ => loopHead s
  | .wait, .resultDisplay => .stuck .noRule
  | .wait, _ => .own (waitStep s)
  | .service, .resultDisplay => .stuck .noRule
  | .service, _ => serviceAction s
  | .shine1 _ _, .resultDisplay => displayAction s
  | .bit _ _, .resultDisplay => displayAction s
  | .shine2 _ _, .resultDisplay => displayAction s
  | .shine1 _ _, _ => .stuck .noRule
  | .bit _ _, _ => .stuck .noRule
  | .shine2 _ _, _ => .stuck .noRule

/-- The action of a step; HALTED and STOPPED have none (60_exceptions.md R204). -/
def action (s : State) : Action :=
  match s.status with
  | .running => phaseAction s
  | .halted _ => .stuck .terminated
  | .stopped => .stuck .terminated

/-- What the step adds after an instruction: `ctl <- SHINE1(0,ON)` after the ALU (40_phase_machine.md R95), the encoder's
step after HELD (45_output_encoder.md R190), nothing after a serviced event. -/
def finish : Instr → State → State
  | .confirm _, s => s
  | .append0 _, s => s
  | .append1 _, s => s
  | .backspace _, s => s
  | .releaseOpi _ _, s => s
  | .confirmOp, s => s
  | .cycle, s => s
  | .unbound _, s => s
  | .releaseOps _, s => s
  | .held _ _, s => encoderStep s
  | .add, s => s.goto (.shine1 0 .on)
  | .sub, s => s.goto (.shine1 0 .on)
  | .mul, s => s.goto (.shine1 0 .on)
  | .div, s => s.goto (.shine1 0 .on)

/-- Place a dispatch word of phases 0 to 2 where SERVICE takes it: its event is the oldest of its line and its line is the
only one in `S`. Log 22. -/
def State.placeEvent (s : State) (p : Phase) (k : Line) (e : Edge) : State :=
  { s with
    status := .running
    phase := p
    ctl := .service
    ready := Lanes.single k
    q := s.q.set k (e :: s.q.get k) }

/-- Nothing arrives before the next step; what was to arrive comes one step later. -/
def State.delayArrivals (s : State) : State :=
  match s.arrivals with
  | [] => s
  | batch :: rest => { s with arrivals := [] :: batch :: rest }

/-- Place an event in ResultDisplay, at the start of the display, as the only pending one. Log 22. -/
def State.placeHeld (s : State) (k : Line) (e : Edge) : State :=
  { s.delayArrivals with
    status := .running
    phase := .resultDisplay
    ctl := .shine1 0 .on
    q := (Lanes.all []).set k [e] }

/-- Place an ALU word where ResultDisplay entry takes it: in `op`. Log 22. -/
def State.placeAlu (s : State) (o : BitVec 2) : State :=
  { s with status := .running, stop := false, phase := .resultDisplay, ctl := .entry, op := o }

/-- Place a word of the block where the next step takes it. -/
def State.placeWord (s : State) : CodeWord → State
  | .dispatch d =>
    match Phase.ofCode (d.extractLsb' 3 2), Line.ofCode (d.extractLsb' 1 2), Edge.ofBit (d.getLsbD 0) with
    | .firstOperandInput, k, e => s.placeEvent .firstOperandInput k e
    | .secondOperandInput, k, e => s.placeEvent .secondOperandInput k e
    | .operationSelection, k, e => s.placeEvent .operationSelection k e
    | .resultDisplay, k, e => s.placeHeld k e
  | .alu o => s.placeAlu o

end Sys2Proof.Machine
end

