-- ==== Sys2Proof/Machine/Step.lean ====
section
/-! DEFINITION. One step of the block: the environment's appends, then one atomic transition (00_scope.md R12). -/

namespace Sys2Proof.Machine

/-- The outcome `o` with its next state passed through `f`. -/
def mapNext (f : State → State) (o : Host.Outcome State Fault Refusal) : Host.Outcome State Fault Refusal :=
  match o with
  | .next t => .next (f t)
  | .fault r => .fault r
  | .refused r => .refused r

/-- Take action `a` in state `s`. -/
def perform (a : Action) (s : State) : Host.Outcome State Fault Refusal :=
  match a with
  | .run i => mapNext (finish i) (exec i s)
  | .own t => .next t
  | .stuck f => .fault f

/-- One slot: what the environment appends before this step arrives, then the block takes its step. -/
def step (s : State) : Host.Outcome State Fault Refusal := perform (action (deliver s)) (deliver s)

/-- `s` with the `nbits`-bit word `w` of an opcode-table row where the next step takes it; `s` itself when `nbits` is no
format's. Log 22. -/
def State.withFetchWord (s : State) (nbits w : Nat) : State :=
  match formatOf nbits with
  | .ok .dispatch => s.placeWord (.dispatch (BitVec.ofNat 5 w))
  | .ok .alu => s.placeWord (.alu (BitVec.ofNat 2 w))
  | .error _ => s

end Sys2Proof.Machine
end

