-- ==== Sys2Proof/Machine/Script.lean ====
section
/-! DEFINITION. Press scripts, the block's test-program notation (30_encoding.md R76, R77). -/

namespace Sys2Proof.Machine

/-- A script token (30_encoding.md R76). -/
inductive Token where
  /-- `P<k>`: a FALLING edge on line `k`. -/
  | fall (k : Line)
  /-- `U<k>`: a RISING edge on line `k`. -/
  | rise (k : Line)
  /-- `press <k>`: `P<k>` then `U<k>`. -/
  | press (k : Line)
  /-- `CONF`. -/
  | conf
  /-- `A0`. -/
  | a0
  /-- `A1`. -/
  | a1
  /-- `BS`. -/
  | bs
  /-- `CYC`. -/
  | cyc
deriving DecidableEq, Repr

/-- Press and release of a line. -/
def pressEvents (k : Line) : List (Line × Edge) := [(k, .falling), (k, .rising)]

/-- The events a token appends: a mnemonic presses its role's line (30_encoding.md R76). -/
def Token.events : Token → List (Line × Edge)
  | .fall k => [(k, .falling)]
  | .rise k => [(k, .rising)]
  | .press k => pressEvents k
  | .conf => pressEvents .l0
  | .a0 => pressEvents .l1
  | .a1 => pressEvents .l2
  | .bs => pressEvents .l3
  | .cyc => pressEvents .l1

/-- The events of a script in append order. -/
def scriptEvents (ts : List Token) : List (Line × Edge) := ts.flatMap Token.events

/-- The encoding of a script: the sequence of its event words (30_encoding.md R77). -/
def encodeScript (ts : List Token) : List (BitVec 3) := encodeEvents (scriptEvents ts)

/-- The environment's appends for a list of events, all before the same step. -/
def batchOf (es : List (Line × Edge)) : List Arrival := es.map fun x => ⟨x.1, x.2⟩

/-- The points at which a slow script appends an event: at WAIT with all four queues empty (30_encoding.md R76). -/
def State.atSlowPoint (s : State) : Bool := (s.ctl == .wait) && s.queuesEmpty

end Sys2Proof.Machine
end

