-- ==== Sys2Proof/Machine/Setup.lean ====
section
/-! DEFINITION. Process start and setup (70_reset_and_hazards.md R230 to R232), and the identifiers of the lines. -/

namespace Sys2Proof.Machine

/-- The block before setup: no line is acquired; the rest is as R45 has it after setup. The environment's tapes are given.
-/
def processStart (draws : List Bool) (arrivals : List (List Arrival)) : State :=
  { State.reset with
    acquiredIn := Lanes.all false
    acquiredOut := Lanes.all false
    calls := []
    draws := draws
    arrivals := arrivals }

/-- The calls of setup in order: each input opened and configured, then each output opened (70_reset_and_hazards.md R230,
D18). -/
def setupCalls : List LineCall :=
  (allLines.flatMap fun k => [.openInput k, .setEdgeDetection k]) ++ allLines.map .openOutput

/-- The call is made (60_exceptions.md R213). -/
def State.recordCall (s : State) (c : LineCall) : State := { s with calls := s.calls ++ [c] }

/-- What a successful call adds to `acquired`: an opened line, configured or not (70_reset_and_hazards.md R230). -/
def State.acquire (s : State) : LineCall → State
  | .openInput k => { s with acquiredIn := s.acquiredIn.set k true }
  | .setEdgeDetection _ => s
  | .openOutput k => { s with acquiredOut := s.acquiredOut.set k true }
  | .closeInput _ => s
  | .closeOutput _ => s

/-- One call of setup; its failure is SetupFail (70_reset_and_hazards.md R230). -/
def setupCall (c : LineCall) (s : State) : Flow :=
  (attempt .setup (s.recordCall c)).andThen fun t => .ongoing (t.acquire c)

/-- The calls of setup one after another, up to the first that fails. -/
def runSetup : List LineCall → State → Flow
  | [], s => .ongoing s
  | c :: cs, s => (setupCall c s).andThen (runSetup cs)

/-- `Setup()`: the state of R45, or HALTED(SETUP) with everything released (70_reset_and_hazards.md R230). -/
def setup (draws : List Bool) (arrivals : List (List Arrival)) : State :=
  (runSetup setupCalls (processStart draws arrivals)).state

/-- The physical identifier a handle call names (00_scope.md R7, D24). -/
def LineCall.lineId : LineCall → Nat
  | .openInput k => Config.inLineId k
  | .setEdgeDetection k => Config.inLineId k
  | .openOutput k => Config.outLineId k
  | .closeInput k => Config.inLineId k
  | .closeOutput k => Config.outLineId k

end Sys2Proof.Machine
end

