-- ==== Sys2Proof/Machine/Trace.lean ====
section
/-! DEFINITION. Reading a trace: the values its names stand for, its pause time, the bits its patterns carry, and the trace
of a whole ResultDisplay (00_scope.md R13, 45_output_encoder.md R186, R187, 60_exceptions.md R200, R207). -/

namespace Sys2Proof.Machine

/-- The length of a named pause, in an unnamed unit (00_scope.md R7). -/
def Duration.length : Duration → Nat
  | .shineOn => Config.tShineOn
  | .shineOff => Config.tShineOff
  | .bit => Config.tBit
  | .gap => Config.tGap

/-- The value of an exit status: 0, or EXIT_FAILURE (60_exceptions.md R207). -/
def ExitStatus.code : ExitStatus → Nat
  | .success => 0
  | .failure => Config.exitFailure

/-- The cause code of a fatal reason (60_exceptions.md R200). -/
def FatalReason.code : FatalReason → Nat
  | .setup => 1
  | .io => 2
  | .invariant => 3

/-- The pause time of one event. -/
def TraceEvent.time : TraceEvent → Nat
  | .lamps _ => 0
  | .pause d => d.length
  | .consume _ _ => 0
  | .divZeroLog => 0
  | .exit _ => 0

/-- The total pause time of a trace (45_output_encoder.md R187). -/
def traceTime : List TraceEvent → Nat
  | [] => 0
  | ev :: evs => ev.time + traceTime evs

/-- `d`: pattern A reads as 1, pattern B as 0, any other vector is no pattern (45_output_encoder.md R186). -/
def patternBit (v : LampVec) : Option Bool :=
  if v = patternA then some true else if v = patternB then some false else none

/-- The bit an event carries, when it writes a bit pattern (45_output_encoder.md R186). -/
def TraceEvent.carriedBit : TraceEvent → Option Bool
  | .lamps v => patternBit v
  | .pause _ => none
  | .consume _ _ => none
  | .divZeroLog => none
  | .exit _ => none

/-- The value of a list of bits, least significant first: the sum over j of `b_j << j` (45_output_encoder.md R186). -/
def valueOfBits : List Bool → Nat
  | [] => 0
  | b :: bs => b.toNat + 2 * valueOfBits bs

/-- What an observer of the trace decodes (45_output_encoder.md R186). -/
def receivedValue (evs : List TraceEvent) : Nat := valueOfBits (evs.filterMap TraceEvent.carriedBit)

/-- A lamp write and its pause. -/
def pulseTrace (v : LampVec) (d : Duration) : List TraceEvent := [.lamps v, .pause d]

/-- One shine cycle (45_output_encoder.md R181). -/
def shineCycleTrace : List TraceEvent := pulseTrace lampsOn .shineOn ++ pulseTrace lampsOff .shineOff

/-- `n` shine cycles. -/
def shineTrace : Nat → List TraceEvent
  | 0 => []
  | n + 1 => shineCycleTrace ++ shineTrace n

/-- The transmission of bits `j` to `j + n - 1` of `r` (45_output_encoder.md R184). -/
def bitsTrace (r : Word) (j : Nat) : Nat → List TraceEvent
  | 0 => []
  | n + 1 => pulseTrace (bitPattern (r.getLsbD j)) .bit ++ pulseTrace lampsOff .gap ++ bitsTrace r (j + 1) n

/-- The trace of a whole ResultDisplay after its entry step (45_output_encoder.md R187). -/
def displayTrace (r : Word) : List TraceEvent := shineTrace 12 ++ bitsTrace r 0 64 ++ shineTrace 12

end Sys2Proof.Machine
end

