-- ==== Sys2Proof/Safety.lean ====
section
/-! DEFINITION. The terms claims use: which primitives succeed, runs of instructions, and the invariant of the block
(10_state.md section 6). -/

namespace Sys2Proof.Machine

/-- The environment lets the next `n` fallible primitives succeed (60_exceptions.md R203). -/
def State.succeeding (s : State) (n : Nat) : Prop := ∀ b ∈ s.draws.take n, b = false

/-- The environment lets every fallible primitive succeed. -/
def State.neverFailing (s : State) : Prop := ∀ b ∈ s.draws, b = false

/-- Run instructions one after another, stopping at the first fault or refusal. -/
def runInstrs : List Instr → State → Host.Outcome State Fault Refusal
  | [], s => .next s
  | i :: is, s =>
    match exec i s with
    | .next t => runInstrs is t
    | .fault r => .fault r
    | .refused r => .refused r

/-- The append command that enters bit `b` in operand phase `p` (42_edit_buffer.md R139). -/
def appendInstr (p : Phase) (b : Bool) : Instr := if b then .append1 p else .append0 p

/-- The control states the table of 40_phase_machine.md R90 lists for a phase. -/
def ctlOccurs (p : Phase) (c : Ctl) : Bool :=
  match c with
  | .entry => true
  | .wait => p != .resultDisplay
  | .service => p != .resultDisplay
  | .shine1 _ _ => p == .resultDisplay
  | .bit _ _ => p == .resultDisplay
  | .shine2 _ _ => p == .resultDisplay

/-- The operand an operand phase edits (10_state.md R22). -/
def operandOf : Phase → OperandIndex
  | .firstOperandInput => .zero
  | .secondOperandInput => .one
  | .operationSelection => .one
  | .resultDisplay => .one

/-- An operand phase after its entry actions (10_state.md R40). -/
def State.editing (s : State) : Prop := s.phase.isOperand = true ∧ s.ctl ≠ .entry

/-- OperationSelection after its entry actions. -/
def State.selecting (s : State) : Prop := s.phase = .operationSelection ∧ s.ctl ≠ .entry

/-- Every bit of the current operand at or above the cursor is 0 (10_state.md R40). -/
def State.cleanTail (s : State) : Prop := s.operand s.cur >>> s.bidx.toNat = 0

/-- What every reachable state satisfies. -/
structure StateInv (s : State) : Prop where
  /-- 40_phase_machine.md R90. -/
  control : ctlOccurs s.phase s.ctl = true
  /-- 10_state.md R39. -/
  cursor : s.bidx.toNat ≤ 64
  /-- 10_state.md R40. -/
  tail : s.editing → s.cleanTail
  /-- 10_state.md R22: the phase edits its own operand. -/
  current : s.editing → s.cur = operandOf s.phase
  /-- 10_state.md R31. -/
  noStop : s.stop = false
  /-- 41_dispatcher.md R110, R115: a wait keeps polling. -/
  polling : s.ctl = .wait → s.keep = true
  /-- 41_dispatcher.md R112, R113: a line still to be serviced has its event. -/
  queued : s.status = .running → s.ctl = .service → ∀ k, s.ready.get k = true → s.q.get k ≠ []
  /-- 10_state.md R34: a running block holds its lines. -/
  held : s.status = .running → s.acquiredIn = Lanes.all true ∧ s.acquiredOut = Lanes.all true
  /-- 60_exceptions.md R202: a halted or stopped block holds none. -/
  released : s.status ≠ .running → s.acquiredIn = Lanes.all false ∧ s.acquiredOut = Lanes.all false
  /-- 42_edit_buffer.md R136, R137: the lamps show the window below the cursor. -/
  shownOperand : s.status = .running → s.editing → s.lamps = s.operandLamps
  /-- 43_op_selector.md R154: the lamps show the operation code. -/
  shownOp : s.status = .running → s.selecting → s.lamps = opLamps s.op

end Sys2Proof.Machine
end

