-- ==== Sys2Proof/Certificates/Slice0/Obligations.lean ====
section
/-! DEFINITION. The statements for the provers. A statement whose docstring says DERIVED rests on the sections it names, on
an inference or a decision the spec marks as its own, or on a choice of the model that it names by its log entry; the others
formalise the rule they name. Throughout, whether a primitive fails is said through the model's tape `draws` (log 1), and
what the environment appends before a step through `deliver` (log 2). -/

open Sys2Proof Sys2Proof.Machine

/-! ### Encodings -/

/-- DERIVED (30_encoding.md section 1; the bit values are the spec's own, D25): R65, the event word's fields are the line
index and the edge bit, and the word is read back as what it stands for. -/
def Obligations.EventWordFields : Prop :=
  ∀ (k : Line) (e : Edge),
    (eventWord k e).extractLsb' 1 2 = k.code ∧
    (eventWord k e).getLsbD 0 = (e == Edge.falling) ∧
    decodeEvent (eventWord k e) = (k, e) ∧
    Line.code .l0 = 0 ∧ Line.code .l1 = 1 ∧ Line.code .l2 = 2 ∧ Line.code .l3 = 3

/-- DERIVED (30_encoding.md section 2, which derives it): R67, the ten dispatch rows partition the 32 words, and the row a word
selects is that of the instruction it decodes to. The second part lists the ten rows as the table has them. -/
def Obligations.DispatchMapPartitionsWords : Prop :=
  (∀ d : BitVec 5,
    opcodeTable.filter (fun r => r.selects .dispatch d.toNat) = [(decode (.dispatch d)).row]) ∧
  opcodeTable.filter (fun r => r.format == .dispatch) =
    [⟨"CONFIRM", .dispatch, 0x01, 0x17⟩, ⟨"APPEND0", .dispatch, 0x03, 0x17⟩, ⟨"APPEND1", .dispatch, 0x05, 0x17⟩,
      ⟨"BACKSPACE", .dispatch, 0x07, 0x17⟩, ⟨"RELEASE_OPI", .dispatch, 0x00, 0x11⟩, ⟨"CONFIRM_OP", .dispatch, 0x11, 0x1F⟩,
      ⟨"CYCLE", .dispatch, 0x13, 0x1F⟩, ⟨"UNBOUND", .dispatch, 0x15, 0x1D⟩, ⟨"RELEASE_OPS", .dispatch, 0x10, 0x19⟩,
      ⟨"HELD", .dispatch, 0x18, 0x18⟩]

/-- DERIVED (30_encoding.md sections 1 to 3, opcode_table.json): words written out from the encodings decode to what they
stand for. -/
def Obligations.WordsFromTheTableDecode : Prop :=
  decode (.dispatch 0b00001#5) = .confirm .firstOperandInput ∧
  decode (.dispatch 0b01011#5) = .append0 .secondOperandInput ∧
  decode (.dispatch 0b00101#5) = .append1 .firstOperandInput ∧
  decode (.dispatch 0b01111#5) = .backspace .secondOperandInput ∧
  decode (.dispatch 0b01100#5) = .releaseOpi .secondOperandInput .l2 ∧
  decode (.dispatch 0b10001#5) = .confirmOp ∧
  decode (.dispatch 0b10011#5) = .cycle ∧
  decode (.dispatch 0b10111#5) = .unbound .l3 ∧
  decode (.dispatch 0b10010#5) = .releaseOps .l1 ∧
  decode (.dispatch 0b11101#5) = .held .l2 .falling ∧
  decode (.alu 0b00#2) = .add ∧ decode (.alu 0b01#2) = .sub ∧ decode (.alu 0b10#2) = .mul ∧ decode (.alu 0b11#2) = .div

/-- DERIVED (30_encoding.md sections 1 to 3): decoding a number in a format gives an instruction exactly when that
instruction is well formed, has that format, and is encoded by that number: no bit of an encoding is dropped, nothing else
decodes to it, and a number with a bit above the format's width is rejected. -/
def Obligations.DecodeAndEncodeAgree : Prop :=
  ∀ (f : Format) (w : Nat) (i : Instr),
    decodeRaw f w = .ok i ↔ (i.wellFormed = true ∧ (encode i).format = f ∧ (encode i).bits = w)

/-- DERIVED (30_encoding.md section 6, which derives it; the token syntax is the spec's own, D34): R76 and R77, every script
is encoded as its tokens' event words in append order and read back as its tokens' events; the token table, with the event
word of an edge on line `k`, and R77's two examples. -/
def Obligations.ScriptEncodingReadsBack : Prop :=
  (∀ es : List (Line × Edge), decodeEvents (encodeEvents es) = es ∧ (encodeEvents es).length = es.length) ∧
  (∀ ts : List Token,
    decodeEvents (encodeScript ts) = ts.flatMap Token.events ∧
    (encodeScript ts).length = (ts.map fun x => x.events.length).sum) ∧
  (∀ ts us : List Token, encodeScript (ts ++ us) = encodeScript ts ++ encodeScript us) ∧
  (∀ k : Line,
    (encodeScript [.fall k]).map BitVec.toNat = [k.code.toNat <<< 1 ||| 1] ∧
    (encodeScript [.rise k]).map BitVec.toNat = [k.code.toNat <<< 1 ||| 0] ∧
    Token.events (.fall k) = [(k, .falling)] ∧ Token.events (.rise k) = [(k, .rising)] ∧
    Token.events (.press k) = [(k, .falling), (k, .rising)]) ∧
  Token.events .conf = Token.events (.press .l0) ∧ Token.events .a0 = Token.events (.press .l1) ∧
  Token.events .a1 = Token.events (.press .l2) ∧ Token.events .bs = Token.events (.press .l3) ∧
  Token.events .cyc = Token.events (.press .l1) ∧
  encodeScript [.conf] = [0b001#3, 0b000#3] ∧ encodeScript [.a1] = [0b101#3, 0b100#3]

/-- DERIVED (41_dispatcher.md sections 1 and 2): R111 and R113, in the phases a dispatcher runs the decoded instruction does
what servicing through the binding table does, and the table is that of the rule. -/
def Obligations.DecodedInstructionFollowsBindingTable : Prop :=
  (∀ (p : Phase) (k : Line) (e : Edge) (s : State), p ≠ .resultDisplay →
    exec (decode (.dispatch (dispatchWord p k e))) s = serviceByBinding p k e s) ∧
  (∀ p : Phase, p = .firstOperandInput ∨ p = .secondOperandInput →
    binding p .l0 = some .confirm ∧ binding p .l1 = some .append0 ∧ binding p .l2 = some .append1 ∧ binding p .l3 = some .backspace) ∧
  binding .operationSelection .l0 = some .confirmOp ∧ binding .operationSelection .l1 = some .cycle ∧
  binding .operationSelection .l2 = none ∧ binding .operationSelection .l3 = none

/-! ### Operand-input commands -/

/-- DERIVED (42_edit_buffer.md section 1, 41_dispatcher.md section 2; that a failing read leaves the queue and `S` as they were
is the model's reading, log 15): R131, CONFIRM's encoding, its effect when the read succeeds, and its only fault, the failing
read. Every field it does not name is unchanged. -/
def Obligations.ConfirmReturnsFalse : Prop :=
  (∀ d : BitVec 5, d &&& 0x17#5 = 0x01#5 ↔ ∃ p, decode (.dispatch d) = .confirm p) ∧
  ∀ (p : Phase) (s : State),
    (s.succeeding 1 →
      exec (.confirm p) s = .next { s with
        keep := false
        ready := s.ready.erase .l0
        q := s.q.set .l0 (s.q.get .l0).tail
        trace := s.trace ++ [.consume .l0 .falling]
        draws := s.draws.drop 1 }) ∧
    (∀ ds, s.draws = true :: ds →
      exec (.confirm p) s = .next (({ s with draws := ds } : State).raiseFatal .io))

/-- DERIVED (42_edit_buffer.md sections 1 and 2, 41_dispatcher.md section 2, 60_exceptions.md section 2; the render at the bound is the spec's
own, D13; that a failing read leaves the queue and `S` as they were is the model's reading, log 15; that a failing render keeps
the writes before it is the spec's own, R201, D29): R132, APPEND0's encoding, effect, render and faults. Every field it
does not name is unchanged. -/
def Obligations.Append0MovesCursor : Prop :=
  (∀ d : BitVec 5, d &&& 0x17#5 = 0x03#5 ↔ ∃ p, decode (.dispatch d) = .append0 p) ∧
  ∀ (p : Phase) (s : State),
    let b := if s.bidx.toNat < 64 then s.bidx + 1 else s.bidx
    let shown := nibble (windowValue (s.operand s.cur) b)
    (s.succeeding 2 →
      exec (.append0 p) s = .next { s with
        bidx := b
        lamps := shown
        ready := s.ready.erase .l1
        q := s.q.set .l1 (s.q.get .l1).tail
        trace := s.trace ++ [.consume .l1 .falling, .lamps shown]
        draws := s.draws.drop 2 }) ∧
    (∀ ds, s.draws = true :: ds →
      exec (.append0 p) s = .next (({ s with draws := ds } : State).raiseFatal .io)) ∧
    (∀ ds, s.draws = false :: true :: ds →
      exec (.append0 p) s = .next (({ s with
        bidx := b
        q := s.q.set .l1 (s.q.get .l1).tail
        trace := s.trace ++ [.consume .l1 .falling]
        draws := ds } : State).raiseFatal .io))

/-- DERIVED (42_edit_buffer.md sections 1 and 2, 41_dispatcher.md section 2, 60_exceptions.md section 2; that a failing read
leaves the queue and `S` as they were is the model's reading, log 15; that a failing render keeps the writes before it is the
spec's own, R201, D29): R133, with the read of R113 and the line leaving `S` of R114, APPEND1's encoding, effect, render and
faults; bit 63 is set at `bidx = 63` and nothing at 64. Every field it does not name is unchanged. -/
def Obligations.Append1SetsBitAtCursor : Prop :=
  (∀ d : BitVec 5, d &&& 0x17#5 = 0x05#5 ↔ ∃ p, decode (.dispatch d) = .append1 p) ∧
  ∀ (p : Phase) (s : State),
    let b := if s.bidx.toNat < 64 then s.bidx + 1 else s.bidx
    let w := if s.bidx.toNat < 64 then s.operand s.cur ||| (1#64 <<< s.bidx.toNat) else s.operand s.cur
    let shown := nibble (windowValue w b)
    (s.succeeding 2 →
      exec (.append1 p) s = .next { s.setOperand s.cur w with
        bidx := b
        lamps := shown
        ready := s.ready.erase .l2
        q := s.q.set .l2 (s.q.get .l2).tail
        trace := s.trace ++ [.consume .l2 .falling, .lamps shown]
        draws := s.draws.drop 2 }) ∧
    (∀ ds, s.draws = true :: ds →
      exec (.append1 p) s = .next (({ s with draws := ds } : State).raiseFatal .io)) ∧
    (∀ ds, s.draws = false :: true :: ds →
      exec (.append1 p) s = .next (({ s.setOperand s.cur w with
        bidx := b
        q := s.q.set .l2 (s.q.get .l2).tail
        trace := s.trace ++ [.consume .l2 .falling]
        draws := ds } : State).raiseFatal .io))

/-- DERIVED (42_edit_buffer.md sections 1 and 2, 41_dispatcher.md section 2, 60_exceptions.md section 2; the render at the bound is the spec's
own, D13; that a failing read leaves the queue and `S` as they were is the model's reading, log 15; that a failing render keeps
the writes before it is the spec's own, R201, D29): R134, BACKSPACE's encoding, effect, render and faults. Every field it
does not name is unchanged. -/
def Obligations.BackspaceClearsBitBelowCursor : Prop :=
  (∀ d : BitVec 5, d &&& 0x17#5 = 0x07#5 ↔ ∃ p, decode (.dispatch d) = .backspace p) ∧
  ∀ (p : Phase) (s : State),
    let b := if 0 < s.bidx.toNat then s.bidx - 1 else s.bidx
    let w :=
      if 0 < s.bidx.toNat then s.operand s.cur &&& ~~~(1#64 <<< (s.bidx.toNat - 1)) else s.operand s.cur
    let shown := nibble (windowValue w b)
    (s.succeeding 2 →
      exec (.backspace p) s = .next { s.setOperand s.cur w with
        bidx := b
        lamps := shown
        ready := s.ready.erase .l3
        q := s.q.set .l3 (s.q.get .l3).tail
        trace := s.trace ++ [.consume .l3 .falling, .lamps shown]
        draws := s.draws.drop 2 }) ∧
    (∀ ds, s.draws = true :: ds →
      exec (.backspace p) s = .next (({ s with draws := ds } : State).raiseFatal .io)) ∧
    (∀ ds, s.draws = false :: true :: ds →
      exec (.backspace p) s = .next (({ s.setOperand s.cur w with
        bidx := b
        q := s.q.set .l3 (s.q.get .l3).tail
        trace := s.trace ++ [.consume .l3 .falling]
        draws := ds } : State).raiseFatal .io))

/-- DERIVED (42_edit_buffer.md section 1, 43_op_selector.md section 1, 30_encoding.md section 2, 41_dispatcher.md section 2; that
a failing read leaves the queue and `S` as they were is the model's reading, log 15): RELEASE_OPI, RELEASE_OPS and UNBOUND
consume the oldest event of their line and change nothing else but the dispatcher's own bookkeeping (the line leaves `S`, the
read takes its draw, the trace shows it); their only fault is the failing read. -/
def Obligations.NoOpWordsOnlyConsume : Prop :=
  (∀ d : BitVec 5, d &&& 0x11#5 = 0x00#5 ↔ ∃ p k, decode (.dispatch d) = .releaseOpi p k) ∧
  (∀ d : BitVec 5, d &&& 0x1D#5 = 0x15#5 ↔ ∃ k, decode (.dispatch d) = .unbound k) ∧
  (∀ d : BitVec 5, d &&& 0x19#5 = 0x10#5 ↔ ∃ k, decode (.dispatch d) = .releaseOps k) ∧
  ∀ (i : Instr) (k : Line) (e : Edge) (s : State),
    ((∃ p, i = .releaseOpi p k ∧ e = .rising) ∨ (i = .releaseOps k ∧ e = .rising) ∨ (i = .unbound k ∧ e = .falling)) →
    (s.succeeding 1 →
      exec i s = .next { s with
        ready := s.ready.erase k
        q := s.q.set k (s.q.get k).tail
        trace := s.trace ++ [.consume k e]
        draws := s.draws.drop 1 }) ∧
    (∀ ds, s.draws = true :: ds → exec i s = .next (({ s with draws := ds } : State).raiseFatal .io))

/-- DERIVED (42_edit_buffer.md section 2): R136 and R137, the render shows the four bits that end at the cursor, bit
`lo + 3 - i` on lamp `i`; a lamp whose bit is at or above the cursor of a clean operand is off. -/
def Obligations.RenderShowsWindowBelowCursor : Prop :=
  ∀ s : State,
    (windowLow s.bidx : Int) = max ((s.bidx.toNat : Int) - 4) 0 ∧
    (∀ k : Line, s.operandLamps.get k = (s.operand s.cur).getLsbD (windowLow s.bidx + 3 - k.code.toNat)) ∧
    (s.cleanTail → ∀ k : Line, s.bidx.toNat ≤ windowLow s.bidx + 3 - k.code.toNat → s.operandLamps.get k = false) ∧
    (s.succeeding 1 →
      renderOperand s = .ongoing { s with
        lamps := s.operandLamps
        trace := s.trace ++ [.lamps s.operandLamps]
        draws := s.draws.drop 1 })

/-- DERIVED (42_edit_buffer.md section 3, which derives it): R141, on every path, the edit commands write no bit of the current
operand but bit `bidx` (APPEND1) or `bidx - 1` (BACKSPACE), leave the other operand alone, and keep `0 <= bidx <= 64`. -/
def Obligations.EditCommandsStayInBounds : Prop :=
  ∀ (i : Instr) (p : Phase) (s t : State),
    i = .append0 p ∨ i = .append1 p ∨ i = .backspace p ∨ i = .confirm p →
    s.bidx.toNat ≤ 64 → exec i s = .next t →
    t.bidx.toNat ≤ 64 ∧ t.cur = s.cur ∧
    (∀ x, x ≠ s.cur → t.operand x = s.operand x) ∧
    (∀ j, (t.operand s.cur).getLsbD j ≠ (s.operand s.cur).getLsbD j →
      (i = .append1 p ∧ j = s.bidx.toNat) ∨ (i = .backspace p ∧ j + 1 = s.bidx.toNat))

/-- DERIVED (42_edit_buffer.md section 3, which derives it): R139, appends of `bits` after phase entry give the operand whose
bit `j` is the `j`-th append, for the first 64 of them, and the cursor counts them up to 64. -/
def Obligations.AppendsBuildOperandLsbFirst : Prop :=
  ∀ (p : Phase) (bits : List Bool) (s : State),
    s.bidx = 0 → s.operand s.cur = 0 → s.neverFailing →
    ∃ t, runInstrs (bits.map (appendInstr p)) s = .next t ∧
      t.bidx.toNat = min bits.length 64 ∧
      t.cur = s.cur ∧
      (t.operand t.cur).toNat = valueOfBits (bits.take 64) ∧
      (∀ x, x ≠ s.cur → t.operand x = s.operand x)

/-- DERIVED (42_edit_buffer.md section 3, which derives it): R140, BACKSPACE undoes the last append, bit and cursor together,
and an APPEND1 after it gives what it would have given one append earlier. -/
def Obligations.BackspaceUndoesAppend : Prop :=
  ∀ (p : Phase) (b : Bool) (s : State),
    s.bidx.toNat < 64 → s.cleanTail → s.neverFailing →
    ∃ t u v, runInstrs [appendInstr p b, .backspace p] s = .next t ∧
      runInstrs [appendInstr p b, .backspace p, .append1 p] s = .next u ∧
      runInstrs [.append1 p] s = .next v ∧
      (t.operand t.cur, t.bidx) = (s.operand s.cur, s.bidx) ∧
      (u.operand u.cur, u.bidx) = (v.operand v.cur, v.bidx)

/-! ### Operation selector -/

/-- DERIVED (43_op_selector.md section 1, 41_dispatcher.md section 2; that a failing read leaves the queue and `S` as they were is
the model's reading, log 15): R150, CONFIRM_OP's encoding, effect and only fault. Every field it does not name is unchanged. -/
def Obligations.ConfirmOpReturnsFalse : Prop :=
  (∀ d : BitVec 5, d &&& 0x1F#5 = 0x11#5 ↔ decode (.dispatch d) = .confirmOp) ∧
  ∀ s : State,
    (s.succeeding 1 →
      exec .confirmOp s = .next { s with
        keep := false
        ready := s.ready.erase .l0
        q := s.q.set .l0 (s.q.get .l0).tail
        trace := s.trace ++ [.consume .l0 .falling]
        draws := s.draws.drop 1 }) ∧
    (∀ ds, s.draws = true :: ds →
      exec .confirmOp s = .next (({ s with draws := ds } : State).raiseFatal .io))

/-- DERIVED (43_op_selector.md sections 1 and 2, 41_dispatcher.md section 2, 60_exceptions.md section 2; that a failing read leaves
the queue and `S` as they were is the model's reading, log 15; that a failing render keeps the writes before it is the spec's
own, R201, D29): R151, CYCLE's encoding, effect, render and faults; the lamps show `[0, 0, op[1], op[0]]` (R154). Every field
it does not name is unchanged. -/
def Obligations.CycleAdvancesOperation : Prop :=
  (∀ d : BitVec 5, d &&& 0x1F#5 = 0x13#5 ↔ decode (.dispatch d) = .cycle) ∧
  ∀ s : State,
    let o := BitVec.ofNat 2 ((s.op.toNat + 1) % 4)
    let shown : LampVec := ⟨false, false, o.getLsbD 1, o.getLsbD 0⟩
    (s.succeeding 2 →
      exec .cycle s = .next { s with
        op := o
        lamps := shown
        ready := s.ready.erase .l1
        q := s.q.set .l1 (s.q.get .l1).tail
        trace := s.trace ++ [.consume .l1 .falling, .lamps shown]
        draws := s.draws.drop 2 }) ∧
    (∀ ds, s.draws = true :: ds → exec .cycle s = .next (({ s with draws := ds } : State).raiseFatal .io)) ∧
    (∀ ds, s.draws = false :: true :: ds →
      exec .cycle s = .next (({ s with
        op := o
        q := s.q.set .l1 (s.q.get .l1).tail
        trace := s.trace ++ [.consume .l1 .falling]
        draws := ds } : State).raiseFatal .io))

/-- DERIVED (43_op_selector.md section 2, which derives it): R155, `n` CYCLE commands add `n` modulo 4 to the operation, so four
return it and, from the ADD that entry leaves, `n` leave `n mod 4`. -/
def Obligations.CyclingIsModuloFour : Prop :=
  ∀ (n : Nat) (s : State), s.neverFailing →
    ∃ t, runInstrs (List.replicate n .cycle) s = .next t ∧
      t.op.toNat = (s.op.toNat + n) % 4 ∧
      (s.op = 0 → t.op.toNat = n % 4) ∧ (n = 4 → t.op = s.op)

/-- DERIVED (43_op_selector.md section 2): R156, a step that changes `op` is OperationSelection's entry, which writes ADD, or
the servicing of a CYCLE. -/
def Obligations.OperationWrittenOnlyByEntryAndCycle : Prop :=
  ∀ s t : State, step s = .next t →
    t.op = s.op ∨
    (s.phase = .operationSelection ∧ s.ctl = .entry ∧ t.op = 0) ∨
    (s.phase = .operationSelection ∧ s.ctl = .service ∧ s.ready.lowest = some .l1 ∧
      ((deliver s).q.get .l1).head? = some .falling ∧ t.op = s.op + 1)

/-! ### ALU -/

/-- R166: ADD's encoding, and its whole effect: `result` is the sum modulo 2^64. -/
def Obligations.AddWritesSum : Prop :=
  (∀ o : BitVec 2, o &&& 0b11#2 = 0b00#2 ↔ decode (.alu o) = .add) ∧
  ∀ s : State, exec .add s =
    .next { s with result := BitVec.ofNat 64 ((s.operand0.toNat + s.operand1.toNat) % 2 ^ 64) }

/-- R167: SUBTRACT's encoding, and its whole effect: `result` is the difference modulo 2^64. -/
def Obligations.SubWritesDifference : Prop :=
  (∀ o : BitVec 2, o &&& 0b11#2 = 0b01#2 ↔ decode (.alu o) = .sub) ∧
  ∀ s : State, exec .sub s =
    .next { s with result := BitVec.ofInt 64 (((s.operand0.toNat : Int) - s.operand1.toNat) % 2 ^ 64) }

/-- R168: MULTIPLY's encoding, and its whole effect: `result` is the product modulo 2^64. -/
def Obligations.MulWritesProduct : Prop :=
  (∀ o : BitVec 2, o &&& 0b11#2 = 0b10#2 ↔ decode (.alu o) = .mul) ∧
  ∀ s : State, exec .mul s =
    .next { s with result := BitVec.ofNat 64 ((s.operand0.toNat * s.operand1.toNat) % 2 ^ 64) }

/-- DERIVED (44_alu.md section 2): DIVIDE's encoding, and its whole effect: 0 and a DIVZERO_LOG when `operand[1]` is 0, else
the floor quotient. The floor of an inexact quotient is PRESUMED (log 11, 93_implementation_defined.md G1). -/
def Obligations.DivWritesQuotient : Prop :=
  (∀ o : BitVec 2, o &&& 0b11#2 = 0b11#2 ↔ decode (.alu o) = .div) ∧
  ∀ s : State,
    (s.operand1 = 0 → exec .div s = .next { s with result := 0, trace := s.trace ++ [.divZeroLog] }) ∧
    (s.operand1 ≠ 0 →
      exec .div s = .next { s with result := BitVec.ofNat 64 (s.operand0.toNat / s.operand1.toNat) })

/-- DERIVED (44_alu.md section 3): the arithmetic laws. The DIV row rests on the PRESUMED floor quotient (log 11). -/
def Obligations.ArithmeticLaws : Prop :=
  (∀ a b : Word,
    (2 ^ 64 ≤ a.toNat + b.toNat → (addResult a b).toNat = a.toNat + b.toNat - 2 ^ 64) ∧
    (a.toNat + b.toNat < 2 ^ 64 → (addResult a b).toNat = a.toNat + b.toNat) ∧
    addResult (subResult a b) b = a ∧
    (mulResult a b).toNat = (a.toNat * b.toNat) % 2 ^ 64 ∧
    addResult a b = addResult b a ∧ mulResult a b = mulResult b a ∧
    (b ≠ 0 → (divResult a b).toNat * b.toNat ≤ a.toNat ∧ a.toNat < ((divResult a b).toNat + 1) * b.toNat) ∧
    divResult a 0 = 0) ∧
  (∃ a b : Word, subResult a b ≠ subResult b a) ∧ (∃ a b : Word, divResult a b ≠ divResult b a)

/-- DERIVED (40_phase_machine.md section 3, 44_alu.md sections 1 and 2): R95, ResultDisplay entry computes the result with the
operands and operation it finds, and starts the first flourish. -/
def Obligations.DisplayEntryComputesResult : Prop :=
  ∀ s : State, s.status = .running → s.stop = false → s.phase = .resultDisplay → s.ctl = .entry →
    step s = .next { deliver s with
      result := calculate s.operand0 s.operand1 s.op
      ctl := .shine1 0 .on
      trace := s.trace ++ (if s.op = 3 ∧ s.operand1 = 0 then [.divZeroLog] else []) }

/-- DERIVED (44_alu.md section 1; the operand order is the spec's own, D4): R165, `Calculate` is the operation the 2-bit code
names, of `operand[0]` and `operand[1]` in this order; the ALU instruction of that code writes it to `result` and changes
nothing else but the trace. -/
def Obligations.CalculateSelectsByOperation : Prop :=
  (∀ a b : Word, calculate a b 0 = addResult a b ∧ calculate a b 1 = subResult a b ∧
    calculate a b 2 = mulResult a b ∧ calculate a b 3 = divResult a b) ∧
  ∀ (o : BitVec 2) (s : State),
    exec (decode (.alu o)) s = .next { s with
      result := calculate (s.operand .zero) (s.operand .one) o
      trace := s.trace ++ (if o = 3 ∧ s.operand1 = 0 then [.divZeroLog] else []) }

/-! ### Output encoder -/

/-- DERIVED (45_output_encoder.md section 1): R180, the nibble display writes bit 3 to lamp 0 down to bit 0 on lamp 3, in one
write without a pause, or halts. -/
def Obligations.NibbleMapsBitsToLamps : Prop :=
  ∀ (v : BitVec 4) (s : State),
    (∀ k : Line, (nibble v).get k = v.getLsbD (3 - k.code.toNat)) ∧
    (s.succeeding 1 →
      writeLamps (nibble v) s = .ongoing { s with
        lamps := nibble v, trace := s.trace ++ [.lamps (nibble v)], draws := s.draws.drop 1 }) ∧
    (∀ ds, s.draws = true :: ds → writeLamps (nibble v) s = .halted (({ s with draws := ds } : State).raiseFatal .io))

/-- DERIVED (45_output_encoder.md section 2; one step per lamp write is the spec's own, D28): R182, the steps of the first
flourish. -/
def Obligations.FirstFlourishSteps : Prop :=
  ∀ (i : Fin 12) (s : State), s.status = .running → s.phase = .resultDisplay →
    (s.succeeding 1 → s.ctl = .shine1 i .on →
      step s = .next { deliver s with
        lamps := lampsOn, ctl := .shine1 i .off
        trace := s.trace ++ [.lamps lampsOn, .pause .shineOn], draws := s.draws.drop 1 }) ∧
    (s.succeeding 1 → s.ctl = .shine1 i .off →
      step s = .next { deliver s with
        lamps := lampsOff
        ctl := if h : i.val < 11 then .shine1 ⟨i.val + 1, Nat.succ_lt_succ h⟩ .on else .bit 0 .hold
        trace := s.trace ++ [.lamps lampsOff, .pause .shineOff], draws := s.draws.drop 1 }) ∧
    (∀ ds h, s.draws = true :: ds → s.ctl = .shine1 i h →
      step s = .next (({ deliver s with draws := ds } : State).raiseFatal .io))

/-- DERIVED (45_output_encoder.md section 3; the lamps outside a pattern are the spec's own, D14): R184, the steps of the serial
transmission, least significant bit first, with no early end. -/
def Obligations.SerialTransmissionSteps : Prop :=
  ∀ (j : Fin 64) (s : State), s.status = .running → s.phase = .resultDisplay →
    (s.succeeding 1 → s.ctl = .bit j .hold →
      let v : LampVec := if s.result.getLsbD j.val then ⟨true, true, false, false⟩ else ⟨false, false, true, true⟩
      step s = .next { deliver s with
        lamps := v, ctl := .bit j .gap
        trace := s.trace ++ [.lamps v, .pause .bit], draws := s.draws.drop 1 }) ∧
    (s.succeeding 1 → s.ctl = .bit j .gap →
      step s = .next { deliver s with
        lamps := lampsOff
        ctl := if h : j.val < 63 then .bit ⟨j.val + 1, Nat.succ_lt_succ h⟩ .hold else .shine2 0 .on
        trace := s.trace ++ [.lamps lampsOff, .pause .gap], draws := s.draws.drop 1 }) ∧
    (∀ ds h, s.draws = true :: ds → s.ctl = .bit j h →
      step s = .next (({ deliver s with draws := ds } : State).raiseFatal .io))

/-- DERIVED (45_output_encoder.md section 2; one step per lamp write is the spec's own, D28): R183, the steps of the second
flourish; the last leads to FirstOperandInput's entry. -/
def Obligations.SecondFlourishSteps : Prop :=
  ∀ (i : Fin 12) (s : State), s.status = .running → s.phase = .resultDisplay →
    (s.succeeding 1 → s.ctl = .shine2 i .on →
      step s = .next { deliver s with
        lamps := lampsOn, ctl := .shine2 i .off
        trace := s.trace ++ [.lamps lampsOn, .pause .shineOn], draws := s.draws.drop 1 }) ∧
    (s.succeeding 1 → s.ctl = .shine2 i .off →
      step s = .next { deliver s with
        lamps := lampsOff
        ctl := if h : i.val < 11 then .shine2 ⟨i.val + 1, Nat.succ_lt_succ h⟩ .on else .entry
        phase := if i.val < 11 then .resultDisplay else .firstOperandInput
        trace := s.trace ++ [.lamps lampsOff, .pause .shineOff], draws := s.draws.drop 1 }) ∧
    (∀ ds h, s.draws = true :: ds → s.ctl = .shine2 i h →
      step s = .next (({ deliver s with draws := ds } : State).raiseFatal .io))

/-- DERIVED (45_output_encoder.md section 4, which derives it; the pause-time clause rests on the model's constants for the open
durations, log 7): R187, from ResultDisplay entry, a run without a fatal halt is back at FirstOperandInput's entry after the
entry step and exactly 176 more steps, and not before; the trace it adds is that of the rule, with the division-by-zero event
of the entry step before it; the operands, the operation and the cursor are as they were, and every event that arrived still
waits. -/
def Obligations.ResultDisplayRunsAndEmits : Prop :=
  ∀ s : State, s.status = .running → s.stop = false → s.phase = .resultDisplay → s.ctl = .entry → s.neverFailing →
    (∃ t, Host.Core.run core 177 s = .next t ∧
      t.phase = .firstOperandInput ∧ t.ctl = .entry ∧ t.status = .running ∧ t.lamps = lampsOff ∧
      t.result = calculate s.operand0 s.operand1 s.op ∧
      t.operand0 = s.operand0 ∧ t.operand1 = s.operand1 ∧ t.op = s.op ∧ t.cur = s.cur ∧ t.bidx = s.bidx ∧
      t.q = (deliver^[177] s).q ∧
      t.trace = s.trace ++ (if s.op = 3 ∧ s.operand1 = 0 then [.divZeroLog] else []) ++ displayTrace t.result ∧
      traceTime (displayTrace t.result) = 24 * (Config.tShineOn + Config.tShineOff) + 64 * (Config.tBit + Config.tGap)) ∧
    Config.tShineOn < Config.tShineOff ∧
    (∀ n, 1 ≤ n → n ≤ 176 →
      ∃ u, Host.Core.run core n s = .next u ∧ u.phase = .resultDisplay ∧ u.ctl ≠ .entry)

/-- DERIVED (45_output_encoder.md section 3, which derives it): R186, the 64 patterns of a transmission, read least significant
first, are the result. -/
def Obligations.TransmissionRoundTrip : Prop :=
  ∀ r : Word,
    receivedValue (displayTrace r) = r.toNat ∧
    ((displayTrace r).filterMap TraceEvent.carriedBit).length = 64 ∧
    patternBit ⟨true, true, false, false⟩ = some true ∧ patternBit ⟨false, false, true, true⟩ = some false

/-- DERIVED (45_output_encoder.md section 4; log 13): HELD changes nothing, so the event it stands for stays queued. -/
def Obligations.HeldLeavesEventQueued : Prop :=
  ∀ (k : Line) (e : Edge) (s : State), exec (.held k e) s = .next s

/-- DERIVED (45_output_encoder.md section 4, 20_memory.md section 4): no step of ResultDisplay consumes an event; the queues
after it are what the environment made them. -/
def Obligations.DisplayConsumesNoEvent : Prop :=
  ∀ s t : State, s.phase = .resultDisplay → step s = .next t →
    t.q = (deliver s).q ∧
    ∃ evs, t.trace = s.trace ++ evs ∧ ∀ k e, TraceEvent.consume k e ∉ evs

/-! ### Dispatcher -/

/-- DERIVED (41_dispatcher.md section 2, 60_exceptions.md section 5; log 3): at WAIT with every queue empty the block holds:
the slot leaves it as it is, whatever the environment later does. -/
def Obligations.WaitHoldsWhileQueuesEmpty : Prop :=
  ∀ s : State, s.status = .running → s.ctl = .wait → s.phase ≠ .resultDisplay →
    (∀ k, (deliver s).q.get k = []) →
    step s = .next (deliver s) ∧ (s.arrivals = [] → step s = .next s)

/-- DERIVED (41_dispatcher.md section 2; that a failing wait leaves `S` as it was is the model's reading, log 15): R112, at WAIT
with an event pending the block takes the set of lines that have one as its snapshot and goes on to service them, or halts
when the wait fails. -/
def Obligations.WakeTakesReadySnapshot : Prop :=
  ∀ s : State, s.status = .running → s.ctl = .wait → s.phase ≠ .resultDisplay →
    (∃ k, (deliver s).q.get k ≠ []) →
    (s.succeeding 1 → ∃ t, step s = .next t ∧
      t = { deliver s with ctl := .service, ready := t.ready, draws := s.draws.drop 1 } ∧
      ∀ k, t.ready.get k = true ↔ (deliver s).q.get k ≠ []) ∧
    (∀ ds, s.draws = true :: ds → step s = .next (({ deliver s with draws := ds } : State).raiseFatal .io))

/-- DERIVED (41_dispatcher.md section 2, 40_phase_machine.md section 3, 45_output_encoder.md section 4; log 13 for the last
clause): the step runs the instruction that stands where it takes its next one. At SERVICE that is the dispatch word of the
oldest event of the lowest line of `S`, and the step is exactly its `exec`; at ResultDisplay entry it is the ALU word in `op`,
after which `ctl <- SHINE1(0,ON)`; in the display a pending event is HELD, and the encoder takes its step. -/
def Obligations.StepRunsDecodedInstruction : Prop :=
  ∀ s : State, s.status = .running →
    (∀ (k : Line) (e : Edge) (es : List Edge), s.phase ≠ .resultDisplay → s.ctl = .service →
      s.ready.lowest = some k → (deliver s).q.get k = e :: es →
      step s = exec (decode (.dispatch (dispatchWord s.phase k e))) (deliver s)) ∧
    (s.phase = .resultDisplay → s.ctl = .entry → s.stop = false →
      step s = mapNext (fun t => t.goto (.shine1 0 .on)) (exec (decode (.alu s.op)) (deliver s))) ∧
    (∀ (k : Line) (e : Edge) (es : List Edge), s.phase = .resultDisplay → ctlOccurs s.phase s.ctl = true → s.ctl ≠ .entry →
      (deliver s).q.pending.lowest = some k → (deliver s).q.get k = e :: es →
      step s = mapNext encoderStep (exec (decode (.dispatch (dispatchWord s.phase k e))) (deliver s)))

/-- DERIVED (41_dispatcher.md section 2; the index order is the spec's resolution C4, log 20): R114, a step at SERVICE that does
not halt takes the lowest-numbered line of `S`, one event of it, the oldest, and no event of another line, and removes that
line from `S`. -/
def Obligations.ServiceTakesLowestLineOnce : Prop :=
  ∀ s t : State, s.ctl = .service → s.phase ≠ .resultDisplay → s.ready ≠ Lanes.all false →
    step s = .next t → t.status = .running →
    ∃ k e, s.ready.get k = true ∧ (∀ j : Line, s.ready.get j = true → k.code.toNat ≤ j.code.toNat) ∧
      (deliver s).q.get k = e :: t.q.get k ∧
      (∀ j, j ≠ k → t.q.get j = (deliver s).q.get j) ∧
      t.ready.get k = false ∧ (∀ j, j ≠ k → t.ready.get j = s.ready.get j) ∧
      t.ctl = .service ∧ t.phase = s.phase

/-- DERIVED (41_dispatcher.md section 2; the merge is the spec's resolution C1): R115, servicing a line clears `keep` when a
callback that returns false runs, a CONFIRM or CONFIRM_OP, and leaves it otherwise. -/
def Obligations.KeepClearedOnlyByConfirm : Prop :=
  ∀ (p : Phase) (k : Line) (e : Edge) (s t : State), p ≠ .resultDisplay →
    exec (decode (.dispatch (dispatchWord p k e))) s = .next t → s.status = .running → t.status = .running →
    t.keep = (s.keep && !(k == .l0 && e == .falling))

/-- R116: at the end of a wake cycle the block waits again when `keep` is 1, and leaves the phase when it is 0. -/
def Obligations.EndOfWakeCycle : Prop :=
  ∀ s : State, s.status = .running → s.ctl = .service → s.phase ≠ .resultDisplay → s.ready = Lanes.all false →
    (s.keep = true → step s = .next { deliver s with ctl := .wait }) ∧
    (s.keep = false → step s = .next { deliver s with phase := nextPhase s.phase, ctl := .entry })

/-- DERIVED (41_dispatcher.md section 2, 70_reset_and_hazards.md section 2, which derive it; the index order is the spec's
resolution C4, log 20): R117 and R235, a press on line 0 and one on line `k` popped in one wake cycle. In an operand phase
APPEND0, APPEND1 or BACKSPACE on line 1, 2 or 3 runs after the CONFIRM, edits the operand being confirmed, and then the phase
exits. In OperationSelection a CYCLE on line 1 runs after the CONFIRM_OP and changes the operation the result is computed
with. -/
def Obligations.EditInConfirmCycleIsApplied : Prop :=
  ∀ (s : State) (k : Line) (q0 qk : List Edge), s.status = .running → s.ctl = .service → s.neverFailing → k ≠ .l0 →
    s.ready = (Lanes.single .l0).set k true → s.q.get .l0 = .falling :: q0 → s.q.get k = .falling :: qk →
    (s.phase.isOperand = true →
      ∃ t, Host.Core.run core 3 s = .next t ∧ t.phase = nextPhase s.phase ∧ t.ctl = .entry ∧
        t.cur = s.cur ∧ (∀ x, x ≠ s.cur → t.operand x = s.operand x) ∧
        t.trace = s.trace ++ [.consume .l0 .falling, .consume k .falling, .lamps t.lamps] ∧
        (k = .l1 →
          t.operand s.cur = s.operand s.cur ∧
          t.bidx = if s.bidx.toNat < 64 then s.bidx + 1 else s.bidx) ∧
        (k = .l2 →
          (t.operand s.cur =
            if s.bidx.toNat < 64 then s.operand s.cur ||| (1#64 <<< s.bidx.toNat) else s.operand s.cur) ∧
          t.bidx = if s.bidx.toNat < 64 then s.bidx + 1 else s.bidx) ∧
        (k = .l3 →
          (t.operand s.cur =
            if 0 < s.bidx.toNat then s.operand s.cur &&& ~~~(1#64 <<< (s.bidx.toNat - 1)) else s.operand s.cur) ∧
          t.bidx = if 0 < s.bidx.toNat then s.bidx - 1 else s.bidx)) ∧
    (s.phase = .operationSelection → k = .l1 →
      ∃ t, Host.Core.run core 3 s = .next t ∧ t.phase = .resultDisplay ∧ t.ctl = .entry ∧
        t.op.toNat = (s.op.toNat + 1) % 4 ∧ t.lamps = opLamps t.op ∧
        t.trace = s.trace ++ [.consume .l0 .falling, .consume .l1 .falling, .lamps t.lamps] ∧
        (s.stop = false →
          ∃ u, Host.Core.run core 4 s = .next u ∧ u.result = calculate s.operand0 s.operand1 t.op))

/-- DERIVED (20_memory.md section 4; log 10 for `offer`): what arrives on a line is appended to its queue in order, behind
what was there, an arrival changes nothing else but the environment's tape, and an append of the environment, within QDEPTH or
not, keeps the invariant. -/
def Obligations.ArrivalsKeepLineOrder : Prop :=
  (∀ (s : State) (a : Arrival), StateInv s → StateInv (s.append a) ∧ StateInv (s.offer a)) ∧
  ∀ (s : State) (batch : List Arrival) (rest : List (List Arrival)), s.arrivals = batch :: rest →
    (∀ k, (deliver s).q.get k = s.q.get k ++ (batch.filter (fun a => a.line == k)).map Arrival.edge) ∧
    deliver s = { s with q := (deliver s).q, arrivals := rest }

/-! ### Phases -/

/-- DERIVED (40_phase_machine.md section 3, 41_dispatcher.md section 1, 60_exceptions.md section 2; that a failing lamp write
keeps the writes of `cur`, `bidx` and `operand[0]` before it is the spec's own, R201, D29, repeated in log 15): R92,
FirstOperandInput entry. -/
def Obligations.FirstOperandEntry : Prop :=
  ∀ s : State, s.status = .running → s.stop = false → s.phase = .firstOperandInput → s.ctl = .entry →
    (s.succeeding 1 → step s = .next { deliver s with
      cur := .zero, bidx := 0, operand0 := 0, lamps := ⟨false, false, false, false⟩, keep := true, ctl := .wait
      trace := s.trace ++ [.lamps ⟨false, false, false, false⟩], draws := s.draws.drop 1 }) ∧
    (∀ ds, s.draws = true :: ds → step s =
      .next (({ deliver s with cur := .zero, bidx := 0, operand0 := 0, draws := ds } : State).raiseFatal .io))

/-- DERIVED (40_phase_machine.md section 3, 41_dispatcher.md section 1, 60_exceptions.md section 2; that a failing lamp write
keeps the writes of `cur`, `bidx` and `operand[1]` before it is the spec's own, R201, D29, repeated in log 15): R93,
SecondOperandInput entry; `operand[0]` is kept. -/
def Obligations.SecondOperandEntry : Prop :=
  ∀ s : State, s.status = .running → s.stop = false → s.phase = .secondOperandInput → s.ctl = .entry →
    (s.succeeding 1 → step s = .next { deliver s with
      cur := .one, bidx := 0, operand1 := 0, lamps := ⟨false, false, false, false⟩, keep := true, ctl := .wait
      trace := s.trace ++ [.lamps ⟨false, false, false, false⟩], draws := s.draws.drop 1 }) ∧
    (∀ ds, s.draws = true :: ds → step s =
      .next (({ deliver s with cur := .one, bidx := 0, operand1 := 0, draws := ds } : State).raiseFatal .io))

/-- DERIVED (40_phase_machine.md section 3, 41_dispatcher.md section 1, 60_exceptions.md section 2; that a failing lamp write
keeps `op = 0` is the spec's own, R201, D29, repeated in log 15): R94, OperationSelection entry resets the operation to ADD. -/
def Obligations.OperationSelectionEntry : Prop :=
  ∀ s : State, s.status = .running → s.stop = false → s.phase = .operationSelection → s.ctl = .entry →
    (s.succeeding 1 → step s = .next { deliver s with
      op := 0, lamps := ⟨false, false, false, false⟩, keep := true, ctl := .wait
      trace := s.trace ++ [.lamps ⟨false, false, false, false⟩], draws := s.draws.drop 1 }) ∧
    (∀ ds, s.draws = true :: ds → step s =
      .next (({ deliver s with op := 0, draws := ds } : State).raiseFatal .io))

/-- DERIVED (40_phase_machine.md section 4): R97, the next-phase function, and the only write of `phase`: a handler's return,
which leaves `ctl` at ENTRY. -/
def Obligations.PhaseWrittenOnlyAtHandlerReturn : Prop :=
  (nextPhase .firstOperandInput = .secondOperandInput ∧ nextPhase .secondOperandInput = .operationSelection ∧
    nextPhase .operationSelection = .resultDisplay ∧ nextPhase .resultDisplay = .firstOperandInput) ∧
  ∀ s t : State, step s = .next t → t.phase ≠ s.phase →
    t.phase = nextPhase s.phase ∧ t.ctl = .entry ∧
    ((s.ctl = .service ∧ s.ready = Lanes.all false ∧ s.keep = false) ∨ s.ctl = .shine2 11 .off)

/-- DERIVED (10_state.md section 3; the constant is the spec's own, D23): R31, no step writes `stop`. -/
def Obligations.StopIsNeverWritten : Prop := ∀ s t : State, step s = .next t → t.stop = s.stop

/-- R205: the graceful stop at the loop head. -/
def Obligations.StopFlagEndsTheRun : Prop :=
  ∀ s : State, s.status = .running → s.ctl = .entry → s.stop = true →
    ∃ t, step s = .next t ∧ t.status = .stopped ∧ t.acquiredIn = Lanes.all false ∧ t.acquiredOut = Lanes.all false ∧
      t.calls = s.calls ++ s.closeCalls ∧ t.trace = s.trace ++ [.exit .success] ∧ ExitStatus.success.code = 0

/-- DERIVED (10_state.md section 6, which derives it): R41, an operand changes only in the phase that edits it. -/
def Obligations.OperandsFrozenOutsideTheirPhase : Prop :=
  ∀ s t : State, StateInv s → step s = .next t →
    (t.operand0 ≠ s.operand0 → s.phase = .firstOperandInput) ∧
    (t.operand1 ≠ s.operand1 → s.phase = .secondOperandInput)

/-! ### Faults, setup and the invariant -/

/-- DERIVED (60_exceptions.md section 2; that earlier writes stay is the spec's own, D29): R201, the fatal path keeps every
register, releases every line, records the reason and exits with a non-zero status. The lamp levels it leaves are a free
value (log 6). -/
def Obligations.FatalPathHaltsAndReleases : Prop :=
  Config.exitFailure ≠ 0 ∧ ExitStatus.failure.code = Config.exitFailure ∧
  (∀ (s : State) (f : State → Flow), (Flow.halted s).andThen f = .halted s) ∧
  ∀ (r : FatalReason) (s : State),
    ∃ v, s.raiseFatal r = { s with
      status := .halted r, acquiredIn := Lanes.all false, acquiredOut := Lanes.all false
      calls := s.calls ++ s.closeCalls, trace := s.trace ++ [.exit .failure], lamps := v, free := s.free + 1 }

/-- DERIVED (60_exceptions.md section 2; the order within inputs and outputs is the spec's own, D18): R202, cleanup closes the
acquired inputs, then the acquired outputs, and empties `acquired`. -/
def Obligations.CleanupClosesInputsThenOutputs : Prop :=
  ∀ s : State,
    s.cleanup.calls = s.calls ++
      ((if s.acquiredIn.l0 then [.closeInput .l0] else []) ++ (if s.acquiredIn.l1 then [.closeInput .l1] else []) ++
       (if s.acquiredIn.l2 then [.closeInput .l2] else []) ++ (if s.acquiredIn.l3 then [.closeInput .l3] else []) ++
       (if s.acquiredOut.l0 then [.closeOutput .l0] else []) ++ (if s.acquiredOut.l1 then [.closeOutput .l1] else []) ++
       (if s.acquiredOut.l2 then [.closeOutput .l2] else []) ++ (if s.acquiredOut.l3 then [.closeOutput .l3] else [])) ∧
    (∀ k, s.cleanup.acquiredIn.get k = false ∧ s.cleanup.acquiredOut.get k = false)

/-- DERIVED (60_exceptions.md section 3; the fault is the model's, log 14): R204, a halted or stopped block has no step. -/
def Obligations.TerminalStatusHasNoStep : Prop :=
  ∀ s : State, s.status ≠ .running → step s = .fault .terminated

/-- DERIVED (60_exceptions.md sections 2 and 3): R206, no step raises Fatal(INVARIANT); the only ways a step ends a run are
Fatal(IO) and, with `stop = 1`, the graceful stop. -/
def Obligations.OnlyIoHaltsAStep : Prop :=
  ∀ s t : State, step s = .next t →
    t.status = .running ∨ t.status = .halted .io ∨ (t.status = .stopped ∧ s.stop = true)

/-- DERIVED (60_exceptions.md section 3, which derives it): R208, a step only adds to the trace, and it adds an EXIT, once and
last, exactly when it ends the run. -/
def Obligations.ExitOnceAndLast : Prop :=
  ∀ s t : State, step s = .next t →
    ∃ evs, (∀ c, TraceEvent.exit c ∉ evs) ∧
      (t.status = .running ∧ t.trace = s.trace ++ evs ∨
       t.status = .halted .io ∧ t.trace = s.trace ++ evs ++ [.exit .failure] ∨
       t.status = .stopped ∧ t.trace = s.trace ++ evs ++ [.exit .success])

/-- DERIVED (70_reset_and_hazards.md section 1; the order is the spec's own, D18): R230, setup makes its calls in order; it ends
in the state after setup when none fails, and when call `n` (counted from 0) is the first to fail it releases what was
opened, inputs before outputs, and halts with reason SETUP. The registers a success leaves are those of reset (log 4). -/
def Obligations.SetupAcquiresOrReleasesAll : Prop :=
  (∀ (draws : List Bool) (arrivals : List (List Arrival)), (∀ b ∈ draws.take 12, b = false) →
    setup draws arrivals = { State.reset with draws := draws.drop 12, arrivals := arrivals }) ∧
  (∀ (n : Nat) (ds : List Bool) (arrivals : List (List Arrival)), n < 12 →
    let t := setup (List.replicate n false ++ true :: ds) arrivals
    t.status = .halted .setup ∧ t.acquiredIn = Lanes.all false ∧ t.acquiredOut = Lanes.all false ∧
    t.trace = [.exit .failure] ∧
    t.calls = State.reset.calls.take (n + 1) ++
      (allLines.filter fun k => 2 * k.code.toNat < n).map .closeInput ++
      (allLines.filter fun k => 8 + k.code.toNat < n).map .closeOutput)

/-- DERIVED (10_state.md section 7): what the table of R45 gives for the state after setup, in the rows it gives a value for;
the registers it leaves unspecified are the model's choice (log 4) and are not stated here. -/
def Obligations.ResetStateAsTheTableGivesIt : Prop :=
  State.reset.phase = .firstOperandInput ∧ State.reset.ctl = .entry ∧ State.reset.lamps = Config.lampInit ∧
  (∀ k, State.reset.q.get k = []) ∧ State.reset.stop = false ∧ State.reset.status = .running ∧
  (∀ k, State.reset.acquiredIn.get k = true ∧ State.reset.acquiredOut.get k = true)

/-- DERIVED (10_state.md sections 6 and 7; the clauses on registers the table leaves unspecified, such as the cursor bound, rest
on the model's reset values, log 4): the invariant holds after reset. -/
def Obligations.ResetMeetsInvariant : Prop := StateInv State.reset

/-- DERIVED (10_state.md section 6): the invariant is kept by every step, from every state that has it. -/
def Obligations.EveryStepKeepsInvariant : Prop := ∀ s t : State, StateInv s → step s = .next t → StateInv t

/-- DERIVED (70_reset_and_hazards.md section 3, 40_phase_machine.md section 1; log 3 for the hold): a running block that
satisfies the invariant always has a next state. -/
def Obligations.RunningBlockAlwaysSteps : Prop :=
  ∀ s : State, StateInv s → s.status = .running → ∃ t, step s = .next t

/-- DERIVED (10_state.md section 6, 70_reset_and_hazards.md section 1; the runs start from the model's values for the registers
the spec leaves unspecified, log 4): the cursor bound, the clean tail and the invariant hold in every state of every run from
the state after setup, whatever the environment appends and whichever primitives fail. -/
def Obligations.EveryRunKeepsInvariant : Prop :=
  ∀ (n : Nat) (draws : List Bool) (arrivals : List (List Arrival)) (t : State),
    Host.Core.run core n (setup draws arrivals) = .next t →
    StateInv t ∧ t.bidx.toNat ≤ 64 ∧ (t.editing → t.cleanTail)
end

