-- ==== Sys2Proof/Laws/Lanes.lean ====
section
/-! SUPPORT. Reading and writing lanes; the lowest line of a set. -/

namespace Sys2Proof

variable {α β : Type}

@[simp] theorem Lanes.get_set_self (v : Lanes α) (k : Line) (x : α) : (v.set k x).get k = x := by
  cases k <;> rfl

@[simp] theorem Lanes.get_set_ne (v : Lanes α) {j k : Line} (x : α) (h : j ≠ k) : (v.set k x).get j = v.get j := by
  cases j <;> cases k <;> first | rfl | exact absurd rfl h

@[simp] theorem Lanes.get_map (f : α → β) (v : Lanes α) (k : Line) : (v.map f).get k = f (v.get k) := by
  cases k <;> rfl

@[simp] theorem Lanes.get_all (x : α) (k : Line) : (Lanes.all x).get k = x := by
  cases k <;> rfl

/-- Two lane values with the same lanes are equal. -/
theorem Lanes.ext_get {v w : Lanes α} (h : ∀ k, v.get k = w.get k) : v = w := by
  cases v
  cases w
  have h0 := h .l0
  have h1 := h .l1
  have h2 := h .l2
  have h3 := h .l3
  simp only [Lanes.get] at h0 h1 h2 h3
  rw [h0, h1, h2, h3]

@[simp] theorem Lanes.get_erase_self (s : Lanes Bool) (k : Line) : (s.erase k).get k = false := by
  simp [Lanes.erase]

@[simp] theorem Lanes.get_erase_ne (s : Lanes Bool) {j k : Line} (h : j ≠ k) : (s.erase k).get j = s.get j := by
  simp [Lanes.erase, h]

/-- A line of `S \ k` is a line of `S`. -/
theorem Lanes.get_of_get_erase {s : Lanes Bool} {j k : Line} (h : (s.erase k).get j = true) : j ≠ k ∧ s.get j = true := by
  by_cases hjk : j = k
  · subst hjk
    simp at h
  · exact ⟨hjk, by simpa [hjk] using h⟩

/-- A line is pending exactly when its queue is not empty. -/
theorem Lanes.get_pending_iff (q : Lanes (List Edge)) (k : Line) : q.pending.get k = true ↔ q.get k ≠ [] := by
  rw [Lanes.pending, Lanes.get_map]
  cases q.get k <;> simp

/-- `lowest` answers nothing exactly for the empty set. -/
theorem Lanes.lowest_eq_none_iff (s : Lanes Bool) : s.lowest = none ↔ s = Lanes.all false := by
  rcases s with ⟨a, b, c, d⟩
  cases a <;> cases b <;> cases c <;> cases d <;> decide

/-- `lowest` answers a member below which there is no other. -/
theorem Lanes.lowest_spec {s : Lanes Bool} {k : Line} (h : s.lowest = some k) :
    s.get k = true ∧ ∀ j, s.get j = true → k.code.toNat ≤ j.code.toNat := by
  rcases s with ⟨a, b, c, d⟩
  cases a <;> cases b <;> cases c <;> cases d <;> cases k <;> simp [Lanes.lowest] at h <;>
    refine ⟨rfl, fun j hj => ?_⟩ <;> cases j <;> first | decide | cases hj

end Sys2Proof
end

