-- ==== Sys2Proof/Laws/State.lean ====
section
/-! SUPPORT. What each named update of State does to each field: one lemma per field per update. -/

namespace Sys2Proof.Machine

/-! ### `emit` -/

@[simp] theorem State.emit_phase (s : State) (ev : TraceEvent) : (s.emit ev).phase = s.phase := rfl
@[simp] theorem State.emit_ctl (s : State) (ev : TraceEvent) : (s.emit ev).ctl = s.ctl := rfl
@[simp] theorem State.emit_operand0 (s : State) (ev : TraceEvent) : (s.emit ev).operand0 = s.operand0 := rfl
@[simp] theorem State.emit_operand1 (s : State) (ev : TraceEvent) : (s.emit ev).operand1 = s.operand1 := rfl
@[simp] theorem State.emit_cur (s : State) (ev : TraceEvent) : (s.emit ev).cur = s.cur := rfl
@[simp] theorem State.emit_bidx (s : State) (ev : TraceEvent) : (s.emit ev).bidx = s.bidx := rfl
@[simp] theorem State.emit_op (s : State) (ev : TraceEvent) : (s.emit ev).op = s.op := rfl
@[simp] theorem State.emit_result (s : State) (ev : TraceEvent) : (s.emit ev).result = s.result := rfl
@[simp] theorem State.emit_keep (s : State) (ev : TraceEvent) : (s.emit ev).keep = s.keep := rfl
@[simp] theorem State.emit_ready (s : State) (ev : TraceEvent) : (s.emit ev).ready = s.ready := rfl
@[simp] theorem State.emit_lamps (s : State) (ev : TraceEvent) : (s.emit ev).lamps = s.lamps := rfl
@[simp] theorem State.emit_q (s : State) (ev : TraceEvent) : (s.emit ev).q = s.q := rfl
@[simp] theorem State.emit_stop (s : State) (ev : TraceEvent) : (s.emit ev).stop = s.stop := rfl
@[simp] theorem State.emit_acquiredIn (s : State) (ev : TraceEvent) : (s.emit ev).acquiredIn = s.acquiredIn := rfl
@[simp] theorem State.emit_acquiredOut (s : State) (ev : TraceEvent) : (s.emit ev).acquiredOut = s.acquiredOut := rfl
@[simp] theorem State.emit_status (s : State) (ev : TraceEvent) : (s.emit ev).status = s.status := rfl
@[simp] theorem State.emit_trace (s : State) (ev : TraceEvent) : (s.emit ev).trace = s.trace ++ [ev] := rfl
@[simp] theorem State.emit_calls (s : State) (ev : TraceEvent) : (s.emit ev).calls = s.calls := rfl
@[simp] theorem State.emit_arrivals (s : State) (ev : TraceEvent) : (s.emit ev).arrivals = s.arrivals := rfl
@[simp] theorem State.emit_draws (s : State) (ev : TraceEvent) : (s.emit ev).draws = s.draws := rfl
@[simp] theorem State.emit_free (s : State) (ev : TraceEvent) : (s.emit ev).free = s.free := rfl

/-! ### `goto` -/

@[simp] theorem State.goto_phase (s : State) (c : Ctl) : (s.goto c).phase = s.phase := rfl
@[simp] theorem State.goto_ctl (s : State) (c : Ctl) : (s.goto c).ctl = c := rfl
@[simp] theorem State.goto_operand0 (s : State) (c : Ctl) : (s.goto c).operand0 = s.operand0 := rfl
@[simp] theorem State.goto_operand1 (s : State) (c : Ctl) : (s.goto c).operand1 = s.operand1 := rfl
@[simp] theorem State.goto_cur (s : State) (c : Ctl) : (s.goto c).cur = s.cur := rfl
@[simp] theorem State.goto_bidx (s : State) (c : Ctl) : (s.goto c).bidx = s.bidx := rfl
@[simp] theorem State.goto_op (s : State) (c : Ctl) : (s.goto c).op = s.op := rfl
@[simp] theorem State.goto_result (s : State) (c : Ctl) : (s.goto c).result = s.result := rfl
@[simp] theorem State.goto_keep (s : State) (c : Ctl) : (s.goto c).keep = s.keep := rfl
@[simp] theorem State.goto_ready (s : State) (c : Ctl) : (s.goto c).ready = s.ready := rfl
@[simp] theorem State.goto_lamps (s : State) (c : Ctl) : (s.goto c).lamps = s.lamps := rfl
@[simp] theorem State.goto_q (s : State) (c : Ctl) : (s.goto c).q = s.q := rfl
@[simp] theorem State.goto_stop (s : State) (c : Ctl) : (s.goto c).stop = s.stop := rfl
@[simp] theorem State.goto_acquiredIn (s : State) (c : Ctl) : (s.goto c).acquiredIn = s.acquiredIn := rfl
@[simp] theorem State.goto_acquiredOut (s : State) (c : Ctl) : (s.goto c).acquiredOut = s.acquiredOut := rfl
@[simp] theorem State.goto_status (s : State) (c : Ctl) : (s.goto c).status = s.status := rfl
@[simp] theorem State.goto_trace (s : State) (c : Ctl) : (s.goto c).trace = s.trace := rfl
@[simp] theorem State.goto_calls (s : State) (c : Ctl) : (s.goto c).calls = s.calls := rfl
@[simp] theorem State.goto_arrivals (s : State) (c : Ctl) : (s.goto c).arrivals = s.arrivals := rfl
@[simp] theorem State.goto_draws (s : State) (c : Ctl) : (s.goto c).draws = s.draws := rfl
@[simp] theorem State.goto_free (s : State) (c : Ctl) : (s.goto c).free = s.free := rfl

/-! ### `cleanup` -/

@[simp] theorem State.cleanup_phase (s : State) : s.cleanup.phase = s.phase := rfl
@[simp] theorem State.cleanup_ctl (s : State) : s.cleanup.ctl = s.ctl := rfl
@[simp] theorem State.cleanup_operand0 (s : State) : s.cleanup.operand0 = s.operand0 := rfl
@[simp] theorem State.cleanup_operand1 (s : State) : s.cleanup.operand1 = s.operand1 := rfl
@[simp] theorem State.cleanup_cur (s : State) : s.cleanup.cur = s.cur := rfl
@[simp] theorem State.cleanup_bidx (s : State) : s.cleanup.bidx = s.bidx := rfl
@[simp] theorem State.cleanup_op (s : State) : s.cleanup.op = s.op := rfl
@[simp] theorem State.cleanup_result (s : State) : s.cleanup.result = s.result := rfl
@[simp] theorem State.cleanup_keep (s : State) : s.cleanup.keep = s.keep := rfl
@[simp] theorem State.cleanup_ready (s : State) : s.cleanup.ready = s.ready := rfl
@[simp] theorem State.cleanup_lamps (s : State) : s.cleanup.lamps = Config.freeLamps s.free := rfl
@[simp] theorem State.cleanup_q (s : State) : s.cleanup.q = s.q := rfl
@[simp] theorem State.cleanup_stop (s : State) : s.cleanup.stop = s.stop := rfl
@[simp] theorem State.cleanup_acquiredIn (s : State) : s.cleanup.acquiredIn = Lanes.all false := rfl
@[simp] theorem State.cleanup_acquiredOut (s : State) : s.cleanup.acquiredOut = Lanes.all false := rfl
@[simp] theorem State.cleanup_status (s : State) : s.cleanup.status = s.status := rfl
@[simp] theorem State.cleanup_trace (s : State) : s.cleanup.trace = s.trace := rfl
@[simp] theorem State.cleanup_calls (s : State) : s.cleanup.calls = s.calls ++ s.closeCalls := rfl
@[simp] theorem State.cleanup_arrivals (s : State) : s.cleanup.arrivals = s.arrivals := rfl
@[simp] theorem State.cleanup_draws (s : State) : s.cleanup.draws = s.draws := rfl
@[simp] theorem State.cleanup_free (s : State) : s.cleanup.free = s.free + 1 := rfl

/-! ### `raiseFatal` -/

@[simp] theorem State.raiseFatal_phase (s : State) (r : FatalReason) : (s.raiseFatal r).phase = s.phase := rfl
@[simp] theorem State.raiseFatal_ctl (s : State) (r : FatalReason) : (s.raiseFatal r).ctl = s.ctl := rfl
@[simp] theorem State.raiseFatal_operand0 (s : State) (r : FatalReason) : (s.raiseFatal r).operand0 = s.operand0 := rfl
@[simp] theorem State.raiseFatal_operand1 (s : State) (r : FatalReason) : (s.raiseFatal r).operand1 = s.operand1 := rfl
@[simp] theorem State.raiseFatal_cur (s : State) (r : FatalReason) : (s.raiseFatal r).cur = s.cur := rfl
@[simp] theorem State.raiseFatal_bidx (s : State) (r : FatalReason) : (s.raiseFatal r).bidx = s.bidx := rfl
@[simp] theorem State.raiseFatal_op (s : State) (r : FatalReason) : (s.raiseFatal r).op = s.op := rfl
@[simp] theorem State.raiseFatal_result (s : State) (r : FatalReason) : (s.raiseFatal r).result = s.result := rfl
@[simp] theorem State.raiseFatal_keep (s : State) (r : FatalReason) : (s.raiseFatal r).keep = s.keep := rfl
@[simp] theorem State.raiseFatal_ready (s : State) (r : FatalReason) : (s.raiseFatal r).ready = s.ready := rfl
@[simp] theorem State.raiseFatal_lamps (s : State) (r : FatalReason) : (s.raiseFatal r).lamps = Config.freeLamps s.free := rfl
@[simp] theorem State.raiseFatal_q (s : State) (r : FatalReason) : (s.raiseFatal r).q = s.q := rfl
@[simp] theorem State.raiseFatal_stop (s : State) (r : FatalReason) : (s.raiseFatal r).stop = s.stop := rfl
@[simp] theorem State.raiseFatal_acquiredIn (s : State) (r : FatalReason) : (s.raiseFatal r).acquiredIn = Lanes.all false := rfl
@[simp] theorem State.raiseFatal_acquiredOut (s : State) (r : FatalReason) : (s.raiseFatal r).acquiredOut = Lanes.all false := rfl
@[simp] theorem State.raiseFatal_status (s : State) (r : FatalReason) : (s.raiseFatal r).status = .halted r := rfl
@[simp] theorem State.raiseFatal_trace (s : State) (r : FatalReason) : (s.raiseFatal r).trace = s.trace ++ [.exit .failure] := rfl
@[simp] theorem State.raiseFatal_calls (s : State) (r : FatalReason) : (s.raiseFatal r).calls = s.calls ++ s.closeCalls := rfl
@[simp] theorem State.raiseFatal_arrivals (s : State) (r : FatalReason) : (s.raiseFatal r).arrivals = s.arrivals := rfl
@[simp] theorem State.raiseFatal_draws (s : State) (r : FatalReason) : (s.raiseFatal r).draws = s.draws := rfl
@[simp] theorem State.raiseFatal_free (s : State) (r : FatalReason) : (s.raiseFatal r).free = s.free + 1 := rfl

/-! ### `gracefulStop` -/

@[simp] theorem State.gracefulStop_phase (s : State) : s.gracefulStop.phase = s.phase := rfl
@[simp] theorem State.gracefulStop_ctl (s : State) : s.gracefulStop.ctl = s.ctl := rfl
@[simp] theorem State.gracefulStop_operand0 (s : State) : s.gracefulStop.operand0 = s.operand0 := rfl
@[simp] theorem State.gracefulStop_operand1 (s : State) : s.gracefulStop.operand1 = s.operand1 := rfl
@[simp] theorem State.gracefulStop_cur (s : State) : s.gracefulStop.cur = s.cur := rfl
@[simp] theorem State.gracefulStop_bidx (s : State) : s.gracefulStop.bidx = s.bidx := rfl
@[simp] theorem State.gracefulStop_op (s : State) : s.gracefulStop.op = s.op := rfl
@[simp] theorem State.gracefulStop_result (s : State) : s.gracefulStop.result = s.result := rfl
@[simp] theorem State.gracefulStop_keep (s : State) : s.gracefulStop.keep = s.keep := rfl
@[simp] theorem State.gracefulStop_ready (s : State) : s.gracefulStop.ready = s.ready := rfl
@[simp] theorem State.gracefulStop_lamps (s : State) : s.gracefulStop.lamps = Config.freeLamps s.free := rfl
@[simp] theorem State.gracefulStop_q (s : State) : s.gracefulStop.q = s.q := rfl
@[simp] theorem State.gracefulStop_stop (s : State) : s.gracefulStop.stop = s.stop := rfl
@[simp] theorem State.gracefulStop_acquiredIn (s : State) : s.gracefulStop.acquiredIn = Lanes.all false := rfl
@[simp] theorem State.gracefulStop_acquiredOut (s : State) : s.gracefulStop.acquiredOut = Lanes.all false := rfl
@[simp] theorem State.gracefulStop_status (s : State) : s.gracefulStop.status = .stopped := rfl
@[simp] theorem State.gracefulStop_trace (s : State) : s.gracefulStop.trace = s.trace ++ [.exit .success] := rfl
@[simp] theorem State.gracefulStop_calls (s : State) : s.gracefulStop.calls = s.calls ++ s.closeCalls := rfl
@[simp] theorem State.gracefulStop_arrivals (s : State) : s.gracefulStop.arrivals = s.arrivals := rfl
@[simp] theorem State.gracefulStop_draws (s : State) : s.gracefulStop.draws = s.draws := rfl
@[simp] theorem State.gracefulStop_free (s : State) : s.gracefulStop.free = s.free + 1 := rfl

/-! ### `serviced` -/

@[simp] theorem State.serviced_phase (s : State) (k : Line) : (s.serviced k).phase = s.phase := rfl
@[simp] theorem State.serviced_ctl (s : State) (k : Line) : (s.serviced k).ctl = s.ctl := rfl
@[simp] theorem State.serviced_operand0 (s : State) (k : Line) : (s.serviced k).operand0 = s.operand0 := rfl
@[simp] theorem State.serviced_operand1 (s : State) (k : Line) : (s.serviced k).operand1 = s.operand1 := rfl
@[simp] theorem State.serviced_cur (s : State) (k : Line) : (s.serviced k).cur = s.cur := rfl
@[simp] theorem State.serviced_bidx (s : State) (k : Line) : (s.serviced k).bidx = s.bidx := rfl
@[simp] theorem State.serviced_op (s : State) (k : Line) : (s.serviced k).op = s.op := rfl
@[simp] theorem State.serviced_result (s : State) (k : Line) : (s.serviced k).result = s.result := rfl
@[simp] theorem State.serviced_keep (s : State) (k : Line) : (s.serviced k).keep = s.keep := rfl
@[simp] theorem State.serviced_ready (s : State) (k : Line) : (s.serviced k).ready = s.ready.erase k := rfl
@[simp] theorem State.serviced_lamps (s : State) (k : Line) : (s.serviced k).lamps = s.lamps := rfl
@[simp] theorem State.serviced_q (s : State) (k : Line) : (s.serviced k).q = s.q := rfl
@[simp] theorem State.serviced_stop (s : State) (k : Line) : (s.serviced k).stop = s.stop := rfl
@[simp] theorem State.serviced_acquiredIn (s : State) (k : Line) : (s.serviced k).acquiredIn = s.acquiredIn := rfl
@[simp] theorem State.serviced_acquiredOut (s : State) (k : Line) : (s.serviced k).acquiredOut = s.acquiredOut := rfl
@[simp] theorem State.serviced_status (s : State) (k : Line) : (s.serviced k).status = s.status := rfl
@[simp] theorem State.serviced_trace (s : State) (k : Line) : (s.serviced k).trace = s.trace := rfl
@[simp] theorem State.serviced_calls (s : State) (k : Line) : (s.serviced k).calls = s.calls := rfl
@[simp] theorem State.serviced_arrivals (s : State) (k : Line) : (s.serviced k).arrivals = s.arrivals := rfl
@[simp] theorem State.serviced_draws (s : State) (k : Line) : (s.serviced k).draws = s.draws := rfl
@[simp] theorem State.serviced_free (s : State) (k : Line) : (s.serviced k).free = s.free := rfl

/-! ### `exitPhase` -/

@[simp] theorem State.exitPhase_phase (s : State) : s.exitPhase.phase = nextPhase s.phase := rfl
@[simp] theorem State.exitPhase_ctl (s : State) : s.exitPhase.ctl = .entry := rfl
@[simp] theorem State.exitPhase_operand0 (s : State) : s.exitPhase.operand0 = s.operand0 := rfl
@[simp] theorem State.exitPhase_operand1 (s : State) : s.exitPhase.operand1 = s.operand1 := rfl
@[simp] theorem State.exitPhase_cur (s : State) : s.exitPhase.cur = s.cur := rfl
@[simp] theorem State.exitPhase_bidx (s : State) : s.exitPhase.bidx = s.bidx := rfl
@[simp] theorem State.exitPhase_op (s : State) : s.exitPhase.op = s.op := rfl
@[simp] theorem State.exitPhase_result (s : State) : s.exitPhase.result = s.result := rfl
@[simp] theorem State.exitPhase_keep (s : State) : s.exitPhase.keep = s.keep := rfl
@[simp] theorem State.exitPhase_ready (s : State) : s.exitPhase.ready = s.ready := rfl
@[simp] theorem State.exitPhase_lamps (s : State) : s.exitPhase.lamps = s.lamps := rfl
@[simp] theorem State.exitPhase_q (s : State) : s.exitPhase.q = s.q := rfl
@[simp] theorem State.exitPhase_stop (s : State) : s.exitPhase.stop = s.stop := rfl
@[simp] theorem State.exitPhase_acquiredIn (s : State) : s.exitPhase.acquiredIn = s.acquiredIn := rfl
@[simp] theorem State.exitPhase_acquiredOut (s : State) : s.exitPhase.acquiredOut = s.acquiredOut := rfl
@[simp] theorem State.exitPhase_status (s : State) : s.exitPhase.status = s.status := rfl
@[simp] theorem State.exitPhase_trace (s : State) : s.exitPhase.trace = s.trace := rfl
@[simp] theorem State.exitPhase_calls (s : State) : s.exitPhase.calls = s.calls := rfl
@[simp] theorem State.exitPhase_arrivals (s : State) : s.exitPhase.arrivals = s.arrivals := rfl
@[simp] theorem State.exitPhase_draws (s : State) : s.exitPhase.draws = s.draws := rfl
@[simp] theorem State.exitPhase_free (s : State) : s.exitPhase.free = s.free := rfl

/-! ### `append` -/

@[simp] theorem State.append_phase (s : State) (a : Arrival) : (s.append a).phase = s.phase := rfl
@[simp] theorem State.append_ctl (s : State) (a : Arrival) : (s.append a).ctl = s.ctl := rfl
@[simp] theorem State.append_operand0 (s : State) (a : Arrival) : (s.append a).operand0 = s.operand0 := rfl
@[simp] theorem State.append_operand1 (s : State) (a : Arrival) : (s.append a).operand1 = s.operand1 := rfl
@[simp] theorem State.append_cur (s : State) (a : Arrival) : (s.append a).cur = s.cur := rfl
@[simp] theorem State.append_bidx (s : State) (a : Arrival) : (s.append a).bidx = s.bidx := rfl
@[simp] theorem State.append_op (s : State) (a : Arrival) : (s.append a).op = s.op := rfl
@[simp] theorem State.append_result (s : State) (a : Arrival) : (s.append a).result = s.result := rfl
@[simp] theorem State.append_keep (s : State) (a : Arrival) : (s.append a).keep = s.keep := rfl
@[simp] theorem State.append_ready (s : State) (a : Arrival) : (s.append a).ready = s.ready := rfl
@[simp] theorem State.append_lamps (s : State) (a : Arrival) : (s.append a).lamps = s.lamps := rfl
@[simp] theorem State.append_q (s : State) (a : Arrival) : (s.append a).q = s.q.set a.line (s.q.get a.line ++ [a.edge]) := rfl
@[simp] theorem State.append_stop (s : State) (a : Arrival) : (s.append a).stop = s.stop := rfl
@[simp] theorem State.append_acquiredIn (s : State) (a : Arrival) : (s.append a).acquiredIn = s.acquiredIn := rfl
@[simp] theorem State.append_acquiredOut (s : State) (a : Arrival) : (s.append a).acquiredOut = s.acquiredOut := rfl
@[simp] theorem State.append_status (s : State) (a : Arrival) : (s.append a).status = s.status := rfl
@[simp] theorem State.append_trace (s : State) (a : Arrival) : (s.append a).trace = s.trace := rfl
@[simp] theorem State.append_calls (s : State) (a : Arrival) : (s.append a).calls = s.calls := rfl
@[simp] theorem State.append_arrivals (s : State) (a : Arrival) : (s.append a).arrivals = s.arrivals := rfl
@[simp] theorem State.append_draws (s : State) (a : Arrival) : (s.append a).draws = s.draws := rfl
@[simp] theorem State.append_free (s : State) (a : Arrival) : (s.append a).free = s.free := rfl

/-! ### `mergeKeep` -/

@[simp] theorem State.mergeKeep_phase (s : State) (ret : Bool) : (s.mergeKeep ret).phase = s.phase := rfl
@[simp] theorem State.mergeKeep_ctl (s : State) (ret : Bool) : (s.mergeKeep ret).ctl = s.ctl := rfl
@[simp] theorem State.mergeKeep_operand0 (s : State) (ret : Bool) : (s.mergeKeep ret).operand0 = s.operand0 := rfl
@[simp] theorem State.mergeKeep_operand1 (s : State) (ret : Bool) : (s.mergeKeep ret).operand1 = s.operand1 := rfl
@[simp] theorem State.mergeKeep_cur (s : State) (ret : Bool) : (s.mergeKeep ret).cur = s.cur := rfl
@[simp] theorem State.mergeKeep_bidx (s : State) (ret : Bool) : (s.mergeKeep ret).bidx = s.bidx := rfl
@[simp] theorem State.mergeKeep_op (s : State) (ret : Bool) : (s.mergeKeep ret).op = s.op := rfl
@[simp] theorem State.mergeKeep_result (s : State) (ret : Bool) : (s.mergeKeep ret).result = s.result := rfl
@[simp] theorem State.mergeKeep_keep (s : State) (ret : Bool) : (s.mergeKeep ret).keep = (s.keep && ret) := rfl
@[simp] theorem State.mergeKeep_ready (s : State) (ret : Bool) : (s.mergeKeep ret).ready = s.ready := rfl
@[simp] theorem State.mergeKeep_lamps (s : State) (ret : Bool) : (s.mergeKeep ret).lamps = s.lamps := rfl
@[simp] theorem State.mergeKeep_q (s : State) (ret : Bool) : (s.mergeKeep ret).q = s.q := rfl
@[simp] theorem State.mergeKeep_stop (s : State) (ret : Bool) : (s.mergeKeep ret).stop = s.stop := rfl
@[simp] theorem State.mergeKeep_acquiredIn (s : State) (ret : Bool) : (s.mergeKeep ret).acquiredIn = s.acquiredIn := rfl
@[simp] theorem State.mergeKeep_acquiredOut (s : State) (ret : Bool) : (s.mergeKeep ret).acquiredOut = s.acquiredOut := rfl
@[simp] theorem State.mergeKeep_status (s : State) (ret : Bool) : (s.mergeKeep ret).status = s.status := rfl
@[simp] theorem State.mergeKeep_trace (s : State) (ret : Bool) : (s.mergeKeep ret).trace = s.trace := rfl
@[simp] theorem State.mergeKeep_calls (s : State) (ret : Bool) : (s.mergeKeep ret).calls = s.calls := rfl
@[simp] theorem State.mergeKeep_arrivals (s : State) (ret : Bool) : (s.mergeKeep ret).arrivals = s.arrivals := rfl
@[simp] theorem State.mergeKeep_draws (s : State) (ret : Bool) : (s.mergeKeep ret).draws = s.draws := rfl
@[simp] theorem State.mergeKeep_free (s : State) (ret : Bool) : (s.mergeKeep ret).free = s.free := rfl

/-! ### `startDispatch` -/

@[simp] theorem State.startDispatch_phase (s : State) : s.startDispatch.phase = s.phase := rfl
@[simp] theorem State.startDispatch_ctl (s : State) : s.startDispatch.ctl = .wait := rfl
@[simp] theorem State.startDispatch_operand0 (s : State) : s.startDispatch.operand0 = s.operand0 := rfl
@[simp] theorem State.startDispatch_operand1 (s : State) : s.startDispatch.operand1 = s.operand1 := rfl
@[simp] theorem State.startDispatch_cur (s : State) : s.startDispatch.cur = s.cur := rfl
@[simp] theorem State.startDispatch_bidx (s : State) : s.startDispatch.bidx = s.bidx := rfl
@[simp] theorem State.startDispatch_op (s : State) : s.startDispatch.op = s.op := rfl
@[simp] theorem State.startDispatch_result (s : State) : s.startDispatch.result = s.result := rfl
@[simp] theorem State.startDispatch_keep (s : State) : s.startDispatch.keep = true := rfl
@[simp] theorem State.startDispatch_ready (s : State) : s.startDispatch.ready = s.ready := rfl
@[simp] theorem State.startDispatch_lamps (s : State) : s.startDispatch.lamps = s.lamps := rfl
@[simp] theorem State.startDispatch_q (s : State) : s.startDispatch.q = s.q := rfl
@[simp] theorem State.startDispatch_stop (s : State) : s.startDispatch.stop = s.stop := rfl
@[simp] theorem State.startDispatch_acquiredIn (s : State) : s.startDispatch.acquiredIn = s.acquiredIn := rfl
@[simp] theorem State.startDispatch_acquiredOut (s : State) : s.startDispatch.acquiredOut = s.acquiredOut := rfl
@[simp] theorem State.startDispatch_status (s : State) : s.startDispatch.status = s.status := rfl
@[simp] theorem State.startDispatch_trace (s : State) : s.startDispatch.trace = s.trace := rfl
@[simp] theorem State.startDispatch_calls (s : State) : s.startDispatch.calls = s.calls := rfl
@[simp] theorem State.startDispatch_arrivals (s : State) : s.startDispatch.arrivals = s.arrivals := rfl
@[simp] theorem State.startDispatch_draws (s : State) : s.startDispatch.draws = s.draws := rfl
@[simp] theorem State.startDispatch_free (s : State) : s.startDispatch.free = s.free := rfl

/-! ### `cycleOp` -/

@[simp] theorem State.cycleOp_phase (s : State) : s.cycleOp.phase = s.phase := rfl
@[simp] theorem State.cycleOp_ctl (s : State) : s.cycleOp.ctl = s.ctl := rfl
@[simp] theorem State.cycleOp_operand0 (s : State) : s.cycleOp.operand0 = s.operand0 := rfl
@[simp] theorem State.cycleOp_operand1 (s : State) : s.cycleOp.operand1 = s.operand1 := rfl
@[simp] theorem State.cycleOp_cur (s : State) : s.cycleOp.cur = s.cur := rfl
@[simp] theorem State.cycleOp_bidx (s : State) : s.cycleOp.bidx = s.bidx := rfl
@[simp] theorem State.cycleOp_op (s : State) : s.cycleOp.op = s.op + 1 := rfl
@[simp] theorem State.cycleOp_result (s : State) : s.cycleOp.result = s.result := rfl
@[simp] theorem State.cycleOp_keep (s : State) : s.cycleOp.keep = s.keep := rfl
@[simp] theorem State.cycleOp_ready (s : State) : s.cycleOp.ready = s.ready := rfl
@[simp] theorem State.cycleOp_lamps (s : State) : s.cycleOp.lamps = s.lamps := rfl
@[simp] theorem State.cycleOp_q (s : State) : s.cycleOp.q = s.q := rfl
@[simp] theorem State.cycleOp_stop (s : State) : s.cycleOp.stop = s.stop := rfl
@[simp] theorem State.cycleOp_acquiredIn (s : State) : s.cycleOp.acquiredIn = s.acquiredIn := rfl
@[simp] theorem State.cycleOp_acquiredOut (s : State) : s.cycleOp.acquiredOut = s.acquiredOut := rfl
@[simp] theorem State.cycleOp_status (s : State) : s.cycleOp.status = s.status := rfl
@[simp] theorem State.cycleOp_trace (s : State) : s.cycleOp.trace = s.trace := rfl
@[simp] theorem State.cycleOp_calls (s : State) : s.cycleOp.calls = s.calls := rfl
@[simp] theorem State.cycleOp_arrivals (s : State) : s.cycleOp.arrivals = s.arrivals := rfl
@[simp] theorem State.cycleOp_draws (s : State) : s.cycleOp.draws = s.draws := rfl
@[simp] theorem State.cycleOp_free (s : State) : s.cycleOp.free = s.free := rfl

/-! ### `setResult` -/

@[simp] theorem State.setResult_phase (s : State) (w : Word) : (s.setResult w).phase = s.phase := rfl
@[simp] theorem State.setResult_ctl (s : State) (w : Word) : (s.setResult w).ctl = s.ctl := rfl
@[simp] theorem State.setResult_operand0 (s : State) (w : Word) : (s.setResult w).operand0 = s.operand0 := rfl
@[simp] theorem State.setResult_operand1 (s : State) (w : Word) : (s.setResult w).operand1 = s.operand1 := rfl
@[simp] theorem State.setResult_cur (s : State) (w : Word) : (s.setResult w).cur = s.cur := rfl
@[simp] theorem State.setResult_bidx (s : State) (w : Word) : (s.setResult w).bidx = s.bidx := rfl
@[simp] theorem State.setResult_op (s : State) (w : Word) : (s.setResult w).op = s.op := rfl
@[simp] theorem State.setResult_result (s : State) (w : Word) : (s.setResult w).result = w := rfl
@[simp] theorem State.setResult_keep (s : State) (w : Word) : (s.setResult w).keep = s.keep := rfl
@[simp] theorem State.setResult_ready (s : State) (w : Word) : (s.setResult w).ready = s.ready := rfl
@[simp] theorem State.setResult_lamps (s : State) (w : Word) : (s.setResult w).lamps = s.lamps := rfl
@[simp] theorem State.setResult_q (s : State) (w : Word) : (s.setResult w).q = s.q := rfl
@[simp] theorem State.setResult_stop (s : State) (w : Word) : (s.setResult w).stop = s.stop := rfl
@[simp] theorem State.setResult_acquiredIn (s : State) (w : Word) : (s.setResult w).acquiredIn = s.acquiredIn := rfl
@[simp] theorem State.setResult_acquiredOut (s : State) (w : Word) : (s.setResult w).acquiredOut = s.acquiredOut := rfl
@[simp] theorem State.setResult_status (s : State) (w : Word) : (s.setResult w).status = s.status := rfl
@[simp] theorem State.setResult_trace (s : State) (w : Word) : (s.setResult w).trace = s.trace := rfl
@[simp] theorem State.setResult_calls (s : State) (w : Word) : (s.setResult w).calls = s.calls := rfl
@[simp] theorem State.setResult_arrivals (s : State) (w : Word) : (s.setResult w).arrivals = s.arrivals := rfl
@[simp] theorem State.setResult_draws (s : State) (w : Word) : (s.setResult w).draws = s.draws := rfl
@[simp] theorem State.setResult_free (s : State) (w : Word) : (s.setResult w).free = s.free := rfl

/-! ### `recordCall` -/

@[simp] theorem State.recordCall_phase (s : State) (c : LineCall) : (s.recordCall c).phase = s.phase := rfl
@[simp] theorem State.recordCall_ctl (s : State) (c : LineCall) : (s.recordCall c).ctl = s.ctl := rfl
@[simp] theorem State.recordCall_operand0 (s : State) (c : LineCall) : (s.recordCall c).operand0 = s.operand0 := rfl
@[simp] theorem State.recordCall_operand1 (s : State) (c : LineCall) : (s.recordCall c).operand1 = s.operand1 := rfl
@[simp] theorem State.recordCall_cur (s : State) (c : LineCall) : (s.recordCall c).cur = s.cur := rfl
@[simp] theorem State.recordCall_bidx (s : State) (c : LineCall) : (s.recordCall c).bidx = s.bidx := rfl
@[simp] theorem State.recordCall_op (s : State) (c : LineCall) : (s.recordCall c).op = s.op := rfl
@[simp] theorem State.recordCall_result (s : State) (c : LineCall) : (s.recordCall c).result = s.result := rfl
@[simp] theorem State.recordCall_keep (s : State) (c : LineCall) : (s.recordCall c).keep = s.keep := rfl
@[simp] theorem State.recordCall_ready (s : State) (c : LineCall) : (s.recordCall c).ready = s.ready := rfl
@[simp] theorem State.recordCall_lamps (s : State) (c : LineCall) : (s.recordCall c).lamps = s.lamps := rfl
@[simp] theorem State.recordCall_q (s : State) (c : LineCall) : (s.recordCall c).q = s.q := rfl
@[simp] theorem State.recordCall_stop (s : State) (c : LineCall) : (s.recordCall c).stop = s.stop := rfl
@[simp] theorem State.recordCall_acquiredIn (s : State) (c : LineCall) : (s.recordCall c).acquiredIn = s.acquiredIn := rfl
@[simp] theorem State.recordCall_acquiredOut (s : State) (c : LineCall) : (s.recordCall c).acquiredOut = s.acquiredOut := rfl
@[simp] theorem State.recordCall_status (s : State) (c : LineCall) : (s.recordCall c).status = s.status := rfl
@[simp] theorem State.recordCall_trace (s : State) (c : LineCall) : (s.recordCall c).trace = s.trace := rfl
@[simp] theorem State.recordCall_calls (s : State) (c : LineCall) : (s.recordCall c).calls = s.calls ++ [c] := rfl
@[simp] theorem State.recordCall_arrivals (s : State) (c : LineCall) : (s.recordCall c).arrivals = s.arrivals := rfl
@[simp] theorem State.recordCall_draws (s : State) (c : LineCall) : (s.recordCall c).draws = s.draws := rfl
@[simp] theorem State.recordCall_free (s : State) (c : LineCall) : (s.recordCall c).free = s.free := rfl

/-! ### `setOperand` -/

@[simp] theorem State.setOperand_phase (s : State) (i : OperandIndex) (w : Word) : (s.setOperand i w).phase = s.phase := by cases i <;> rfl
@[simp] theorem State.setOperand_ctl (s : State) (i : OperandIndex) (w : Word) : (s.setOperand i w).ctl = s.ctl := by cases i <;> rfl
@[simp] theorem State.setOperand_cur (s : State) (i : OperandIndex) (w : Word) : (s.setOperand i w).cur = s.cur := by cases i <;> rfl
@[simp] theorem State.setOperand_bidx (s : State) (i : OperandIndex) (w : Word) : (s.setOperand i w).bidx = s.bidx := by cases i <;> rfl
@[simp] theorem State.setOperand_op (s : State) (i : OperandIndex) (w : Word) : (s.setOperand i w).op = s.op := by cases i <;> rfl
@[simp] theorem State.setOperand_result (s : State) (i : OperandIndex) (w : Word) : (s.setOperand i w).result = s.result := by cases i <;> rfl
@[simp] theorem State.setOperand_keep (s : State) (i : OperandIndex) (w : Word) : (s.setOperand i w).keep = s.keep := by cases i <;> rfl
@[simp] theorem State.setOperand_ready (s : State) (i : OperandIndex) (w : Word) : (s.setOperand i w).ready = s.ready := by cases i <;> rfl
@[simp] theorem State.setOperand_lamps (s : State) (i : OperandIndex) (w : Word) : (s.setOperand i w).lamps = s.lamps := by cases i <;> rfl
@[simp] theorem State.setOperand_q (s : State) (i : OperandIndex) (w : Word) : (s.setOperand i w).q = s.q := by cases i <;> rfl
@[simp] theorem State.setOperand_stop (s : State) (i : OperandIndex) (w : Word) : (s.setOperand i w).stop = s.stop := by cases i <;> rfl
@[simp] theorem State.setOperand_acquiredIn (s : State) (i : OperandIndex) (w : Word) : (s.setOperand i w).acquiredIn = s.acquiredIn := by cases i <;> rfl
@[simp] theorem State.setOperand_acquiredOut (s : State) (i : OperandIndex) (w : Word) : (s.setOperand i w).acquiredOut = s.acquiredOut := by cases i <;> rfl
@[simp] theorem State.setOperand_status (s : State) (i : OperandIndex) (w : Word) : (s.setOperand i w).status = s.status := by cases i <;> rfl
@[simp] theorem State.setOperand_trace (s : State) (i : OperandIndex) (w : Word) : (s.setOperand i w).trace = s.trace := by cases i <;> rfl
@[simp] theorem State.setOperand_calls (s : State) (i : OperandIndex) (w : Word) : (s.setOperand i w).calls = s.calls := by cases i <;> rfl
@[simp] theorem State.setOperand_arrivals (s : State) (i : OperandIndex) (w : Word) : (s.setOperand i w).arrivals = s.arrivals := by cases i <;> rfl
@[simp] theorem State.setOperand_draws (s : State) (i : OperandIndex) (w : Word) : (s.setOperand i w).draws = s.draws := by cases i <;> rfl
@[simp] theorem State.setOperand_free (s : State) (i : OperandIndex) (w : Word) : (s.setOperand i w).free = s.free := by cases i <;> rfl

@[simp] theorem State.setOperand_zero_operand0 (s : State) (w : Word) : (s.setOperand .zero w).operand0 = w := rfl
@[simp] theorem State.setOperand_zero_operand1 (s : State) (w : Word) : (s.setOperand .zero w).operand1 = s.operand1 := rfl
@[simp] theorem State.setOperand_one_operand0 (s : State) (w : Word) : (s.setOperand .one w).operand0 = s.operand0 := rfl
@[simp] theorem State.setOperand_one_operand1 (s : State) (w : Word) : (s.setOperand .one w).operand1 = w := rfl

/-- Reading back the operand just written. -/
@[simp] theorem State.operand_setOperand_self (s : State) (i : OperandIndex) (w : Word) : (s.setOperand i w).operand i = w := by
  cases i <;> rfl

/-- Writing one operand leaves the other. -/
theorem State.operand_setOperand_ne (s : State) {i j : OperandIndex} (w : Word) (h : j ≠ i) :
    (s.setOperand i w).operand j = s.operand j := by
  cases i <;> cases j <;> first | rfl | exact absurd rfl h

/-- Writing back the value an operand has changes nothing. -/
@[simp] theorem State.setOperand_operand (s : State) (i : OperandIndex) : s.setOperand i (s.operand i) = s := by
  cases i <;> rfl

@[simp] theorem State.operand_zero (s : State) : s.operand .zero = s.operand0 := rfl
@[simp] theorem State.operand_one (s : State) : s.operand .one = s.operand1 := rfl

/-- An operand is read from the operand pair alone. -/
theorem State.operand_congr {s t : State} (h0 : t.operand0 = s.operand0) (h1 : t.operand1 = s.operand1) (i : OperandIndex) :
    t.operand i = s.operand i := by
  cases i
  · exact h0
  · exact h1

end Sys2Proof.Machine
end

