-- ==== Sys2Proof/Laws/Ops.lean ====
section
/-! SUPPORT. One lemma per shared operation that says all it can do: a primitive goes on or halts, a servicing, an encoder
pulse, a phase start, an arrival. -/

namespace Sys2Proof.Machine

@[simp] theorem Flow.ongoing_andThen (s : State) (f : State → Flow) : (Flow.ongoing s).andThen f = f s := rfl
@[simp] theorem Flow.halted_andThen (s : State) (f : State → Flow) : (Flow.halted s).andThen f = .halted s := rfl
@[simp] theorem Flow.state_ongoing (s : State) : (Flow.ongoing s).state = s := rfl
@[simp] theorem Flow.state_halted (s : State) : (Flow.halted s).state = s := rfl

/-! ### Draws -/

/-- Succeeding for more primitives is succeeding for fewer. -/
theorem State.succeeding.mono {s : State} {m n : Nat} (h : s.succeeding n) (hmn : m ≤ n) : s.succeeding m :=
  fun b hb => h b ((List.take_prefix_take_left hmn).subset hb)

/-- After one successful primitive, one fewer is left to succeed. -/
theorem State.succeeding.next {s t : State} {n : Nat} (h : s.succeeding (n + 1)) (hd : t.draws = s.draws.drop 1) :
    t.succeeding n := by
  intro b hb
  apply h b
  rw [hd] at hb
  cases hs : s.draws with
  | nil => simp [hs] at hb
  | cons d ds =>
    rw [hs] at hb
    exact List.mem_cons_of_mem _ hb

theorem State.neverFailing.succeeding {s : State} (h : s.neverFailing) (n : Nat) : s.succeeding n :=
  fun b hb => h b (List.mem_of_mem_take hb)

theorem State.neverFailing.of_drop {s t : State} {n : Nat} (h : s.neverFailing) (hd : t.draws = s.draws.drop n) :
    t.neverFailing :=
  fun b hb => h b (List.mem_of_mem_drop (hd ▸ hb))

/-- A draw lets the primitive succeed and is used up, or is the one that fails. -/
theorem State.succeeding_or_fails (s : State) : s.succeeding 1 ∨ ∃ ds, s.draws = true :: ds := by
  cases h : s.draws with
  | nil => exact .inl (by simp [State.succeeding, h])
  | cons d ds =>
    cases d with
    | false => exact .inl (by simp [State.succeeding, h])
    | true => exact .inr ⟨ds, rfl⟩

theorem State.eq_of_draws_nil {s : State} (h : s.draws = []) : s = { s with draws := [] } := by
  cases s
  cases h
  rfl

theorem State.eq_of_arrivals_nil {s : State} (h : s.arrivals = []) :
    s = { s with q := s.q, arrivals := s.arrivals.tail } := by
  cases s
  cases h
  rfl

/-- A primitive the environment lets succeed only takes its draw. -/
theorem attempt_of_succeeding {s : State} (r : FatalReason) (h : s.succeeding 1) :
    attempt r s = .ongoing { s with draws := s.draws.drop 1 } := by
  unfold attempt
  split
  next hd =>
    have hs : s = { s with draws := s.draws.drop 1 } := by rw [hd]; exact State.eq_of_draws_nil hd
    rw [← hs]
  next ds hd => simp [hd]
  next ds hd => exact absurd (h true (by simp [hd])) (by decide)

/-- A primitive the environment makes fail raises its reason. -/
theorem attempt_of_fails {s : State} (r : FatalReason) {ds : List Bool} (h : s.draws = true :: ds) :
    attempt r s = .halted (({ s with draws := ds } : State).raiseFatal r) := by
  simp [attempt, h]

/-! ### Primitives -/

theorem writeLamps_of_succeeding {s : State} (v : LampVec) (h : s.succeeding 1) :
    writeLamps v s =
      .ongoing { s with lamps := v, trace := s.trace ++ [.lamps v], draws := s.draws.drop 1 } := by
  simp [writeLamps, attempt_of_succeeding .io h, State.emit]

theorem writeLamps_of_fails {s : State} (v : LampVec) {ds : List Bool} (h : s.draws = true :: ds) :
    writeLamps v s = .halted (({ s with draws := ds } : State).raiseFatal .io) := by
  simp [writeLamps, attempt_of_fails .io h]

theorem sampleReady_of_succeeding {s : State} (h : s.succeeding 1) :
    sampleReady s = .ongoing { s with ready := s.q.pending, draws := s.draws.drop 1 } := by
  simp [sampleReady, attempt_of_succeeding .io h]

theorem sampleReady_of_fails {s : State} {ds : List Bool} (h : s.draws = true :: ds) :
    sampleReady s = .halted (({ s with draws := ds } : State).raiseFatal .io) := by
  simp [sampleReady, attempt_of_fails .io h]

theorem pop_of_succeeding {s : State} (k : Line) (e : Edge) (h : s.succeeding 1) :
    pop k e s = .ongoing { s with
      q := s.q.set k (s.q.get k).tail, trace := s.trace ++ [.consume k e], draws := s.draws.drop 1 } := by
  simp [pop, attempt_of_succeeding .io h, State.emit]

theorem pop_of_fails {s : State} (k : Line) (e : Edge) {ds : List Bool} (h : s.draws = true :: ds) :
    pop k e s = .halted (({ s with draws := ds } : State).raiseFatal .io) := by
  simp [pop, attempt_of_fails .io h]

/-! ### Servicing -/

/-- What the read leaves for the action: the event is out of its queue and in the trace, its draw is used. -/
def State.popped (s : State) (k : Line) (e : Edge) : State :=
  { s with q := s.q.set k (s.q.get k).tail, trace := s.trace ++ [.consume k e], draws := s.draws.drop 1 }

/-- A servicing halts at the read, or its action halts, or the line leaves `S`. -/
theorem service_spec (k : Line) (e : Edge) (act : State → Flow) (s : State) :
    (∃ ds, s.draws = true :: ds ∧
      service k e act s = .next (({ s with draws := ds } : State).raiseFatal .io)) ∨
    (s.succeeding 1 ∧ ∃ t, act (s.popped k e) = .halted t ∧ service k e act s = .next t) ∨
    (s.succeeding 1 ∧ ∃ t, act (s.popped k e) = .ongoing t ∧ service k e act s = .next (t.serviced k)) := by
  rcases s.succeeding_or_fails with h | ⟨ds, h⟩
  · right
    have hp : pop k e s = .ongoing (s.popped k e) := pop_of_succeeding k e h
    cases ha : act (s.popped k e) with
    | halted t => exact .inl ⟨h, t, rfl, by simp [service, hp, ha]⟩
    | ongoing t => exact .inr ⟨h, t, rfl, by simp [service, hp, ha]⟩
  · exact .inl ⟨ds, h, by simp [service, pop_of_fails k e h]⟩

theorem service_of_ongoing {k : Line} {e : Edge} {act : State → Flow} {s t : State} (h : s.succeeding 1)
    (ha : act (s.popped k e) = .ongoing t) : service k e act s = .next (t.serviced k) := by
  have hp : pop k e s = .ongoing (s.popped k e) := pop_of_succeeding k e h
  simp [service, hp, ha]

theorem service_of_halted {k : Line} {e : Edge} {act : State → Flow} {s t : State} (h : s.succeeding 1)
    (ha : act (s.popped k e) = .halted t) : service k e act s = .next t := by
  have hp : pop k e s = .ongoing (s.popped k e) := pop_of_succeeding k e h
  simp [service, hp, ha]

theorem service_of_fails {k : Line} {e : Edge} {act : State → Flow} {s : State} {ds : List Bool}
    (h : s.draws = true :: ds) : service k e act s = .next (({ s with draws := ds } : State).raiseFatal .io) := by
  simp [service, pop_of_fails k e h]

/-- A callback that renders: the edit `f` and the lamps, or the edit alone and Fatal(IO). -/
theorem invoke_render_of_succeeding {ret : Bool} {f : State → State} {v : State → LampVec} {s : State}
    (h : (f s).succeeding 1) :
    invoke ret (fun t => writeLamps (v (f t)) (f t)) s =
      .ongoing (({ f s with
        lamps := v (f s), trace := (f s).trace ++ [.lamps (v (f s))], draws := (f s).draws.drop 1 } : State).mergeKeep ret) := by
  simp only [invoke, writeLamps_of_succeeding _ h, Flow.ongoing_andThen]

theorem invoke_render_of_fails {ret : Bool} {f : State → State} {v : State → LampVec} {s : State} {ds : List Bool}
    (h : (f s).draws = true :: ds) :
    invoke ret (fun t => writeLamps (v (f t)) (f t)) s = .halted (({ f s with draws := ds } : State).raiseFatal .io) := by
  simp only [invoke, writeLamps_of_fails _ h, Flow.halted_andThen]

/-- A servicing always has a next state. -/
theorem service_next (k : Line) (e : Edge) (act : State → Flow) (s : State) : ∃ t, service k e act s = .next t :=
  ⟨_, rfl⟩

/-- An encoder pulse: the lamps, the pause and what follows, or Fatal(IO). -/
theorem pulse_of_succeeding {s : State} (v : LampVec) (d : Duration) (after : State → State) (h : s.succeeding 1) :
    pulse v d after s =
      after { s with lamps := v, trace := s.trace ++ [.lamps v, .pause d], draws := s.draws.drop 1 } := by
  simp [pulse, writeLamps_of_succeeding v h, State.pause, State.emit]

theorem pulse_of_fails {s : State} (v : LampVec) (d : Duration) (after : State → State) {ds : List Bool}
    (h : s.draws = true :: ds) : pulse v d after s = ({ s with draws := ds } : State).raiseFatal .io := by
  simp [pulse, writeLamps_of_fails v h]

/-- A phase start: all lamps off and the dispatcher waiting, or Fatal(IO). -/
theorem startPhase_of_succeeding {s : State} (h : s.succeeding 1) :
    startPhase s = { s with
      lamps := lampsOff, trace := s.trace ++ [.lamps lampsOff], draws := s.draws.drop 1, keep := true, ctl := .wait } := by
  simp [startPhase, writeLamps_of_succeeding lampsOff h, State.startDispatch]

theorem startPhase_of_fails {s : State} {ds : List Bool} (h : s.draws = true :: ds) :
    startPhase s = ({ s with draws := ds } : State).raiseFatal .io := by
  simp [startPhase, writeLamps_of_fails lampsOff h]

/-! ### Arrivals -/

/-- The events of a batch that are on line `k`, in order. -/
def eventsOn (batch : List Arrival) (k : Line) : List Edge := (batch.filter fun a => a.line == k).map Arrival.edge

/-- A batch of arrivals changes only the queues. -/
theorem State.appendAll_eq (batch : List Arrival) (s : State) :
    s.appendAll batch = { s with q := (s.appendAll batch).q } := by
  induction batch generalizing s with
  | nil => rfl
  | cons a as ih =>
    rw [State.appendAll, ih (s.append a)]
    rfl

/-- A batch of arrivals goes behind what each queue holds, in order. -/
theorem State.appendAll_get (batch : List Arrival) (s : State) (k : Line) :
    (s.appendAll batch).q.get k = s.q.get k ++ eventsOn batch k := by
  induction batch generalizing s with
  | nil => simp [State.appendAll, eventsOn]
  | cons a as ih =>
    rw [State.appendAll, ih (s.append a)]
    by_cases h : a.line = k
    · subst h
      simp [eventsOn]
    · have h' : k ≠ a.line := fun hk => h hk.symm
      simp [eventsOn, h, h']

/-- The environment's turn changes only the queues and its own tape. -/
theorem deliver_eq (s : State) : deliver s = { s with q := (deliver s).q, arrivals := s.arrivals.tail } := by
  unfold deliver
  split
  next h => exact State.eq_of_arrivals_nil h
  next batch rest h =>
    rw [State.appendAll_eq]
    simp [h]

/-- What a queue holds after the environment's turn begins with what it held before. -/
theorem deliver_get (s : State) (k : Line) : ∃ es, (deliver s).q.get k = s.q.get k ++ es := by
  unfold deliver
  split
  · exact ⟨[], by simp⟩
  · exact ⟨_, State.appendAll_get _ _ k⟩

theorem deliver_of_no_arrivals {s : State} (h : s.arrivals = []) : deliver s = s := by
  simp [deliver, h]

@[simp] theorem deliver_phase (s : State) : (deliver s).phase = s.phase := by rw [deliver_eq]
@[simp] theorem deliver_ctl (s : State) : (deliver s).ctl = s.ctl := by rw [deliver_eq]
@[simp] theorem deliver_operand0 (s : State) : (deliver s).operand0 = s.operand0 := by rw [deliver_eq]
@[simp] theorem deliver_operand1 (s : State) : (deliver s).operand1 = s.operand1 := by rw [deliver_eq]
@[simp] theorem deliver_cur (s : State) : (deliver s).cur = s.cur := by rw [deliver_eq]
@[simp] theorem deliver_bidx (s : State) : (deliver s).bidx = s.bidx := by rw [deliver_eq]
@[simp] theorem deliver_op (s : State) : (deliver s).op = s.op := by rw [deliver_eq]
@[simp] theorem deliver_result (s : State) : (deliver s).result = s.result := by rw [deliver_eq]
@[simp] theorem deliver_keep (s : State) : (deliver s).keep = s.keep := by rw [deliver_eq]
@[simp] theorem deliver_ready (s : State) : (deliver s).ready = s.ready := by rw [deliver_eq]
@[simp] theorem deliver_lamps (s : State) : (deliver s).lamps = s.lamps := by rw [deliver_eq]
@[simp] theorem deliver_stop (s : State) : (deliver s).stop = s.stop := by rw [deliver_eq]
@[simp] theorem deliver_acquiredIn (s : State) : (deliver s).acquiredIn = s.acquiredIn := by rw [deliver_eq]
@[simp] theorem deliver_acquiredOut (s : State) : (deliver s).acquiredOut = s.acquiredOut := by rw [deliver_eq]
@[simp] theorem deliver_status (s : State) : (deliver s).status = s.status := by rw [deliver_eq]
@[simp] theorem deliver_trace (s : State) : (deliver s).trace = s.trace := by rw [deliver_eq]
@[simp] theorem deliver_calls (s : State) : (deliver s).calls = s.calls := by rw [deliver_eq]
@[simp] theorem deliver_draws (s : State) : (deliver s).draws = s.draws := by rw [deliver_eq]
@[simp] theorem deliver_free (s : State) : (deliver s).free = s.free := by rw [deliver_eq]
@[simp] theorem deliver_arrivals (s : State) : (deliver s).arrivals = s.arrivals.tail := by rw [deliver_eq]

@[simp] theorem deliver_operand (s : State) (i : OperandIndex) : (deliver s).operand i = s.operand i :=
  State.operand_congr (deliver_operand0 s) (deliver_operand1 s) i

@[simp] theorem deliver_succeeding (s : State) (n : Nat) : (deliver s).succeeding n ↔ s.succeeding n := by
  simp [State.succeeding]

end Sys2Proof.Machine
end

