-- ==== Sys2Proof/Laws/PerInstr.lean ====
section
/-! SUPPORT. Per instruction: a well-formed instruction's word selects its own row of the opcode table and no other, and
has no bit above its format's width. -/

namespace Sys2Proof.Laws.RowMatch

/-- The word of `i` selects exactly the row of `i`, and fits its format. -/
def Statement (i : Instr) : Prop :=
  i.wellFormed = true →
    opcodeTable.filter (fun r => r.selects (encode i).format (encode i).bits) = [i.row] ∧
    (encode i).bits < 2 ^ (encode i).format.width

theorem confirm (p : Phase) : Statement (.confirm p) := by
  cases p <;> first | exact fun h => absurd h (by decide) | exact fun _ => by decide

theorem append0 (p : Phase) : Statement (.append0 p) := by
  cases p <;> first | exact fun h => absurd h (by decide) | exact fun _ => by decide

theorem append1 (p : Phase) : Statement (.append1 p) := by
  cases p <;> first | exact fun h => absurd h (by decide) | exact fun _ => by decide

theorem backspace (p : Phase) : Statement (.backspace p) := by
  cases p <;> first | exact fun h => absurd h (by decide) | exact fun _ => by decide

theorem releaseOpi (p : Phase) (k : Line) : Statement (.releaseOpi p k) := by
  cases p <;> cases k <;> first | exact fun h => absurd h (by decide) | exact fun _ => by decide

theorem confirmOp : Statement .confirmOp := fun _ => by decide

theorem cycle : Statement .cycle := fun _ => by decide

theorem unbound (k : Line) : Statement (.unbound k) := by
  cases k <;> first | exact fun h => absurd h (by decide) | exact fun _ => by decide

theorem releaseOps (k : Line) : Statement (.releaseOps k) := by
  cases k <;> exact fun _ => by decide

theorem held (k : Line) (e : Edge) : Statement (.held k e) := by
  cases k <;> cases e <;> exact fun _ => by decide

theorem add : Statement .add := fun _ => by decide

theorem sub : Statement .sub := fun _ => by decide

theorem mul : Statement .mul := fun _ => by decide

theorem div : Statement .div := fun _ => by decide

end Sys2Proof.Laws.RowMatch
end

