-- ==== Sys2Proof/Laws/Step.lean ====
section
/-! SUPPORT. What a step can do, said once: `step_cases`. And what each action of an event does. -/

namespace Sys2Proof.Machine

/-- What an event does after its read: a callback, or nothing. -/
def eventAction : Phase → Line → Edge → State → Flow
  | .firstOperandInput, .l0, .falling => invoke false noAction
  | .firstOperandInput, .l1, .falling => invoke true fun t => renderOperand t.appendZero
  | .firstOperandInput, .l2, .falling => invoke true fun t => renderOperand t.appendOne
  | .firstOperandInput, .l3, .falling => invoke true fun t => renderOperand t.backspace
  | .secondOperandInput, .l0, .falling => invoke false noAction
  | .secondOperandInput, .l1, .falling => invoke true fun t => renderOperand t.appendZero
  | .secondOperandInput, .l2, .falling => invoke true fun t => renderOperand t.appendOne
  | .secondOperandInput, .l3, .falling => invoke true fun t => renderOperand t.backspace
  | .operationSelection, .l0, .falling => invoke false noAction
  | .operationSelection, .l1, .falling => invoke true fun t => renderOp t.cycleOp
  | .operationSelection, .l2, .falling => noAction
  | .operationSelection, .l3, .falling => noAction
  | .resultDisplay, _, .falling => noAction
  | _, _, .rising => noAction

/-- A dispatch word decodes to the row of its fields. -/
theorem decode_dispatchWord (p : Phase) (k : Line) (e : Edge) :
    decode (.dispatch (dispatchWord p k e)) = decodeFields p e k := by
  cases p <;> cases k <;> cases e <;> decide

/-- In the phases a dispatcher runs, a dispatch word's instruction services its line with the event's action. -/
theorem exec_dispatchWord {p : Phase} (k : Line) (e : Edge) (hp : p ≠ .resultDisplay) :
    exec (decode (.dispatch (dispatchWord p k e))) = service k e (eventAction p k e) := by
  rw [decode_dispatchWord]
  cases p <;> cases k <;> cases e <;> first | rfl | exact absurd rfl hp

/-- In those phases the step adds nothing to the instruction. -/
theorem finish_dispatchWord {p : Phase} (k : Line) (e : Edge) (hp : p ≠ .resultDisplay) (s : State) :
    finish (decode (.dispatch (dispatchWord p k e))) s = s := by
  rw [decode_dispatchWord]
  cases p <;> cases k <;> cases e <;> first | rfl | exact absurd rfl hp

/-- In ResultDisplay a dispatch word is HELD. -/
theorem decode_dispatchWord_display (k : Line) (e : Edge) :
    decode (.dispatch (dispatchWord .resultDisplay k e)) = .held k e := by
  rw [decode_dispatchWord]
  rfl

/-- A step of the display is the encoder's, whether or not an event is HELD. -/
theorem perform_displayAction (s : State) : perform (displayAction s) s = .next (encoderStep s) := by
  unfold displayAction
  split
  · rfl
  next k e _ =>
    rw [decode_dispatchWord_display]
    rfl

/-- The ALU word in `op` writes what `calculate` gives, and a division by zero is logged. -/
theorem exec_alu (o : BitVec 2) (s : State) :
    exec (decode (.alu o)) s = .next { s with
      result := calculate s.operand0 s.operand1 o
      trace := s.trace ++ (if o = 3 ∧ s.operand1 = 0 then [.divZeroLog] else []) } := by
  have ho : o = 0 ∨ o = 1 ∨ o = 2 ∨ o = 3 := by
    revert o
    decide
  rcases ho with rfl | rfl | rfl | rfl
  · simp [decode, decodeAlu, exec, execAdd, calculate, State.setResult]
  · simp [decode, decodeAlu, exec, execSub, calculate, State.setResult]
  · simp [decode, decodeAlu, exec, execMul, calculate, State.setResult]
  · by_cases hb : s.operand1 = 0
    · simp [decode, decodeAlu, exec, execDiv, calculate, State.setResult, State.emit, hb]
    · have hb' : ¬s.operand1 = 0#64 := hb
      simp only [decode, decodeAlu, exec, execDiv, calculate, State.setResult]
      simp [hb']

/-- The step adds `ctl <- SHINE1(0,ON)` to an ALU word. -/
theorem finish_alu (o : BitVec 2) (s : State) : finish (decode (.alu o)) s = s.goto (.shine1 0 .on) := by
  have ho : o = 0 ∨ o = 1 ∨ o = 2 ∨ o = 3 := by
    revert o
    decide
  rcases ho with rfl | rfl | rfl | rfl <;> rfl

/-- What ResultDisplay's entry step leaves. -/
def State.displayEntered (u : State) : State :=
  { u with
    result := calculate u.operand0 u.operand1 u.op
    ctl := .shine1 0 .on
    trace := u.trace ++ (if u.op = 3 ∧ u.operand1 = 0 then [.divZeroLog] else []) }

/-- All a running block's step can do, from the state `u` after the environment's turn. -/
inductive StepCase (u : State) : State → Prop where
  | graceful (h : u.ctl = .entry) (hs : u.stop = true) : StepCase u u.gracefulStop
  | first (h : u.ctl = .entry) (hs : u.stop = false) (hp : u.phase = .firstOperandInput) : StepCase u (enterFirst u)
  | second (h : u.ctl = .entry) (hs : u.stop = false) (hp : u.phase = .secondOperandInput) : StepCase u (enterSecond u)
  | selection (h : u.ctl = .entry) (hs : u.stop = false) (hp : u.phase = .operationSelection) :
      StepCase u (enterSelection u)
  | display (h : u.ctl = .entry) (hs : u.stop = false) (hp : u.phase = .resultDisplay) : StepCase u u.displayEntered
  | wait (h : u.ctl = .wait) (hp : u.phase ≠ .resultDisplay) : StepCase u (waitStep u)
  | cycleEnd (h : u.ctl = .service) (hp : u.phase ≠ .resultDisplay) (hr : u.ready = Lanes.all false) :
      StepCase u (endCycle u)
  | event {t : State} (h : u.ctl = .service) (hp : u.phase ≠ .resultDisplay) (k : Line) (e : Edge) (es : List Edge)
      (hk : u.ready.lowest = some k) (hq : u.q.get k = e :: es)
      (ht : service k e (eventAction u.phase k e) u = .next t) : StepCase u t
  | encoder (h : ctlOccurs .operationSelection u.ctl = false) (hp : u.phase = .resultDisplay) : StepCase u (encoderStep u)

/-- A step's next state, by cases. -/
theorem step_cases {s t : State} (h : step s = .next t) : s.status = .running ∧ StepCase (deliver s) t := by
  rw [step] at h
  generalize hu : deliver s = u at h ⊢
  have hst : u.status = s.status := by rw [← hu, deliver_status]
  have hrun : s.status = .running := by
    rw [← hst]
    unfold action at h
    split at h
    · assumption
    · cases h
    · cases h
  refine ⟨hrun, ?_⟩
  rw [← hst] at hrun
  simp only [action, hrun] at h
  unfold phaseAction at h
  split at h
  next hc =>
    unfold loopHead at h
    split at h
    next hs => cases h; exact .graceful hc hs
    next hs =>
      have hs : u.stop = false := by simpa using hs
      split at h
      next hp => cases h; exact .first hc hs hp
      next hp => cases h; exact .second hc hs hp
      next hp => cases h; exact .selection hc hs hp
      next hp =>
        simp only [perform, exec_alu, mapNext, finish_alu] at h
        cases h
        exact .display hc hs hp
  next => cases h
  next hc hp => cases h; exact .wait hc hp
  next => cases h
  next hc hp =>
    unfold serviceAction at h
    split at h
    next hl => cases h; exact .cycleEnd hc hp ((Lanes.lowest_eq_none_iff _).1 hl)
    next k hl =>
      split at h
      next => cases h
      next e es hq =>
        refine .event hc hp k e es hl hq ?_
        simp only [perform, exec_dispatchWord k e hp] at h
        obtain ⟨v, hv⟩ := service_next k e (eventAction u.phase k e) u
        rw [hv] at h ⊢
        simp only [mapNext, finish_dispatchWord k e hp] at h
        exact h
  next hc hp => rw [perform_displayAction] at h; cases h; exact .encoder (by rw [hc]; rfl) hp
  next hc hp => rw [perform_displayAction] at h; cases h; exact .encoder (by rw [hc]; rfl) hp
  next hc hp => rw [perform_displayAction] at h; cases h; exact .encoder (by rw [hc]; rfl) hp
  next => cases h
  next => cases h
  next => cases h

/-! ### Events -/

/-- The edit an event makes before its render. -/
def eventEdit : Phase → Line → Edge → State → State
  | .firstOperandInput, .l1, .falling => State.appendZero
  | .firstOperandInput, .l2, .falling => State.appendOne
  | .firstOperandInput, .l3, .falling => State.backspace
  | .secondOperandInput, .l1, .falling => State.appendZero
  | .secondOperandInput, .l2, .falling => State.appendOne
  | .secondOperandInput, .l3, .falling => State.backspace
  | .operationSelection, .l1, .falling => State.cycleOp
  | _, _, _ => id

/-- Whether an event's callback writes the lamps. -/
def eventRenders : Phase → Line → Edge → Bool
  | .firstOperandInput, .l0, _ => false
  | .firstOperandInput, _, .falling => true
  | .secondOperandInput, .l0, _ => false
  | .secondOperandInput, _, .falling => true
  | .operationSelection, .l1, .falling => true
  | _, _, _ => false

/-- What an event's callback shows on the lamps, after its edit. -/
def eventLamps (p : Phase) (s : State) : LampVec :=
  match p with
  | .operationSelection => opLamps s.op
  | _ => s.operandLamps

/-- What an event merges into `keep`: only a press on line 0 gives false. -/
def eventReturns (k : Line) (e : Edge) : Bool := !(k == .l0 && e == .falling)

/-- An edit writes nothing but the operands, the cursor and the operation. -/
theorem eventEdit_eq (p : Phase) (k : Line) (e : Edge) (s : State) :
    eventEdit p k e s = { s with
      operand0 := (eventEdit p k e s).operand0
      operand1 := (eventEdit p k e s).operand1
      bidx := (eventEdit p k e s).bidx
      op := (eventEdit p k e s).op } := by
  have hz : s.appendZero = { s with bidx := s.appendZero.bidx } := by
    unfold State.appendZero
    split <;> rfl
  have ho : s.appendOne = { s with
      operand0 := s.appendOne.operand0, operand1 := s.appendOne.operand1, bidx := s.appendOne.bidx } := by
    unfold State.appendOne
    split
    · cases h : s.cur <;> simp [State.setOperand, h]
    · rfl
  have hb : s.backspace = { s with
      operand0 := s.backspace.operand0, operand1 := s.backspace.operand1, bidx := s.backspace.bidx } := by
    unfold State.backspace
    split
    · cases h : s.cur <;> simp [State.setOperand, h]
    · rfl
  unfold eventEdit
  split
  · rw [hz]
  · rw [ho]
  · rw [hb]
  · rw [hz]
  · rw [ho]
  · rw [hb]
  · rfl
  · rfl

/-- An event's action, by whether it renders. -/
theorem eventAction_eq {p : Phase} (k : Line) (e : Edge) (hp : p ≠ .resultDisplay) (s : State) :
    eventAction p k e s =
      if eventRenders p k e then
        invoke true (fun t => writeLamps (eventLamps p (eventEdit p k e t)) (eventEdit p k e t)) s
      else .ongoing { s with keep := s.keep && eventReturns k e } := by
  have hkeep : Flow.ongoing s = .ongoing { s with keep := s.keep && true } := by simp
  cases p <;> cases k <;> cases e <;>
    first
    | rfl
    | exact absurd rfl hp
    | exact hkeep

/-- A renderer's callback never returns false. -/
theorem eventReturns_of_renders {p : Phase} {k : Line} {e : Edge} (h : eventRenders p k e = true) :
    eventReturns k e = true := by
  cases p <;> cases k <;> cases e <;> first | rfl | cases h

/-- All a serviced event can do: the read fails; it only consumes, and a press on line 0 clears `keep`; its render fails
after its edit; or it edits and renders. -/
theorem event_spec {p : Phase} {k : Line} {e : Edge} {u t : State} (hp : p ≠ .resultDisplay)
    (h : service k e (eventAction p k e) u = .next t) :
    (∃ ds, u.draws = true :: ds ∧ t = ({ u with draws := ds } : State).raiseFatal .io) ∨
    (eventRenders p k e = false ∧ u.succeeding 1 ∧
      t = { u.popped k e with keep := u.keep && eventReturns k e, ready := u.ready.erase k }) ∨
    (eventRenders p k e = true ∧ u.succeeding 1 ∧ ∃ ds, (u.popped k e).draws = true :: ds ∧
      t = ({ eventEdit p k e (u.popped k e) with draws := ds } : State).raiseFatal .io) ∨
    (eventRenders p k e = true ∧ u.succeeding 1 ∧
      t = { eventEdit p k e (u.popped k e) with
        lamps := eventLamps p (eventEdit p k e (u.popped k e))
        trace := u.trace ++ [.consume k e, .lamps (eventLamps p (eventEdit p k e (u.popped k e)))]
        draws := (u.draws.drop 1).drop 1
        ready := u.ready.erase k }) := by
  rcases service_spec k e (eventAction p k e) u with ⟨ds, hd, hh⟩ | ⟨hs, v, hv, hh⟩ | ⟨hs, v, hv, hh⟩
  · exact .inl ⟨ds, hd, by rw [hh] at h; cases h; rfl⟩
  all_goals
    rw [hh] at h
    cases h
    rw [eventAction_eq k e hp] at hv
    have hed := eventEdit_eq p k e (u.popped k e)
    cases hr : eventRenders p k e with
    | false => ?_
    | true =>
      simp only [hr, if_true] at hv
      rcases (eventEdit p k e (u.popped k e)).succeeding_or_fails with h2 | ⟨ds, h2⟩
      · rw [invoke_render_of_succeeding (v := eventLamps p) h2] at hv
        cases hv
        try (
          refine .inr (.inr (.inr ⟨rfl, hs, ?_⟩))
          rw [hed]
          simp [State.mergeKeep, State.serviced, State.popped])
      · rw [invoke_render_of_fails (v := eventLamps p) h2] at hv
        cases hv
        try exact .inr (.inr (.inl ⟨rfl, hs, ds, by rw [hed] at h2; exact h2, rfl⟩))
  · simp [hr] at hv
  · simp only [hr] at hv
    cases hv
    exact .inr (.inl ⟨rfl, hs, rfl⟩)

/-! ### Placed words -/

/-- A dispatch word is made of its fields. -/
theorem dispatchWord_fields (d : BitVec 5) :
    dispatchWord (Phase.ofCode (d.extractLsb' 3 2)) (Line.ofCode (d.extractLsb' 1 2)) (Edge.ofBit (d.getLsbD 0)) = d := by
  revert d
  decide

theorem lowest_single (k : Line) : (Lanes.single k).lowest = some k := by
  cases k <;> rfl

/-- A placed event is the one SERVICE takes next. -/
theorem action_placeEvent {p : Phase} (hp : p ≠ .resultDisplay) (k : Line) (e : Edge) (s : State) :
    action (deliver (s.placeEvent p k e)) = .run (decode (.dispatch (dispatchWord p k e))) := by
  obtain ⟨es, hes⟩ := deliver_get (s.placeEvent p k e) k
  have hq : (deliver (s.placeEvent p k e)).q.get k = e :: (s.q.get k ++ es) := by
    rw [hes]
    simp [State.placeEvent]
  have hs : serviceAction (deliver (s.placeEvent p k e)) = .run (decode (.dispatch (dispatchWord p k e))) := by
    have hl : (deliver (s.placeEvent p k e)).ready.lowest = some k := by
      rw [deliver_ready]
      exact lowest_single k
    have hph : (deliver (s.placeEvent p k e)).phase = p := by
      rw [deliver_phase]
      rfl
    simp only [serviceAction, hl, hq, hph]
  rw [← hs]
  have hst : (deliver (s.placeEvent p k e)).status = .running := by
    rw [deliver_status]
    rfl
  have hct : (deliver (s.placeEvent p k e)).ctl = .service := by
    rw [deliver_ctl]
    rfl
  have hph : (deliver (s.placeEvent p k e)).phase = p := by
    rw [deliver_phase]
    rfl
  simp only [action, hst, phaseAction, hct, hph]

/-- A placed HELD event is the one the display takes next. -/
theorem action_placeHeld (k : Line) (e : Edge) (s : State) :
    action (deliver (s.placeHeld k e)) = .run (decode (.dispatch (dispatchWord .resultDisplay k e))) := by
  have hd : deliver (s.placeHeld k e) = { s.placeHeld k e with arrivals := s.arrivals } := by
    unfold State.placeHeld State.delayArrivals deliver
    cases h : s.arrivals <;> simp [h, State.appendAll]
  rw [hd]
  cases k <;> rfl

/-- The very next step runs the placed word. -/
theorem action_placeWord (w : CodeWord) (s : State) : action (deliver (s.placeWord w)) = .run (decode w) := by
  cases w with
  | alu o =>
    have hd : deliver (s.placeAlu o) = { s.placeAlu o with q := (deliver (s.placeAlu o)).q, arrivals := s.arrivals.tail } :=
      deliver_eq _
    show action (deliver (s.placeAlu o)) = _
    rw [hd]
    rfl
  | dispatch d =>
    conv => rhs; rw [← dispatchWord_fields d]
    simp only [State.placeWord]
    cases Phase.ofCode (d.extractLsb' 3 2) with
    | firstOperandInput => exact action_placeEvent (by decide) _ _ s
    | secondOperandInput => exact action_placeEvent (by decide) _ _ s
    | operationSelection => exact action_placeEvent (by decide) _ _ s
    | resultDisplay => exact action_placeHeld _ _ s

end Sys2Proof.Machine
end

