-- ==== Sys2Proof/Tests/Slice0.lean ====
section
/-! SUPPORT. Small checks on fixed values, with what is expected taken from 30_encoding.md and 95_test_vectors.md, and for
each statement with hypotheses a state that meets them. -/

namespace Sys2Proof.Tests

open Sys2Proof.Machine

/-! ### Helpers -/

/-- The state after setup with the lamps off: a state without an open value in it. -/
def base : State := { State.reset with lamps := lampsOff }

/-- A field of the next state. -/
def after {α : Type} (o : Host.Outcome State Fault Refusal) (f : State → α) : Option α :=
  match o with
  | .next t => some (f t)
  | .fault _ => none
  | .refused _ => none

/-- FirstOperandInput at SERVICE, with operand `w`, cursor `b` and a press waiting on each line. -/
def editing (w : Word) (b : BitVec 7) : State :=
  { base with
    ctl := .service, operand0 := w, bidx := b, lamps := nibble (windowValue w b)
    ready := Lanes.all true, q := Lanes.all [.falling] }

/-- OperationSelection at SERVICE with operation `o` and a press waiting on each line. -/
def selecting (o : BitVec 2) : State :=
  { base with
    phase := .operationSelection, ctl := .service, cur := .one, op := o, lamps := opLamps o
    ready := Lanes.all true, q := Lanes.all [.falling] }

/-- Operands for the ALU. -/
def operands (a b : Word) : State := { base with operand0 := a, operand1 := b }

/-- ResultDisplay in control state `c` with result `r`. -/
def displaying (c : Ctl) (r : Word) : State := { base with phase := .resultDisplay, ctl := c, result := r }

/-- What an edit command leaves of the operand, the cursor and the lamps. -/
def edited (s : State) : Word × BitVec 7 × LampVec := (s.operand s.cur, s.bidx, s.lamps)

/-! ### WellFormed refuses ill-formed terms -/

theorem test_wf_confirm : Instr.wellFormed (.confirm .operationSelection) = false := by decide
theorem test_wf_append0 : Instr.wellFormed (.append0 .resultDisplay) = false := by decide
theorem test_wf_append1 : Instr.wellFormed (.append1 .operationSelection) = false := by decide
theorem test_wf_backspace : Instr.wellFormed (.backspace .resultDisplay) = false := by decide
theorem test_wf_releaseOpi : Instr.wellFormed (.releaseOpi .operationSelection .l1) = false := by decide
theorem test_wf_unbound_line0 : Instr.wellFormed (.unbound .l0) = false := by decide
theorem test_wf_unbound_line1 : Instr.wellFormed (.unbound .l1) = false := by decide

/-! ### Decoding: words written out from 30_encoding.md R65 to R71 as phase, line, fall -/

theorem test_decode_confirm : decodeTableWord 5 0b01001 = some (.confirm .secondOperandInput) := by decide
theorem test_decode_append0 : decodeTableWord 5 0b00011 = some (.append0 .firstOperandInput) := by decide
theorem test_decode_append1 : decodeTableWord 5 0b01101 = some (.append1 .secondOperandInput) := by decide
theorem test_decode_backspace : decodeTableWord 5 0b00111 = some (.backspace .firstOperandInput) := by decide
theorem test_decode_releaseOpi : decodeTableWord 5 0b01110 = some (.releaseOpi .secondOperandInput .l3) := by decide
theorem test_decode_confirmOp : decodeTableWord 5 0b10001 = some .confirmOp := by decide
theorem test_decode_cycle : decodeTableWord 5 0b10011 = some .cycle := by decide
theorem test_decode_unbound : decodeTableWord 5 0b10101 = some (.unbound .l2) := by decide
theorem test_decode_releaseOps : decodeTableWord 5 0b10100 = some (.releaseOps .l2) := by decide
theorem test_decode_held : decodeTableWord 5 0b11011 = some (.held .l1 .falling) := by decide
theorem test_decode_add : decodeTableWord 2 0b00 = some .add := by decide
theorem test_decode_sub : decodeTableWord 2 0b01 = some .sub := by decide
theorem test_decode_mul : decodeTableWord 2 0b10 = some .mul := by decide
theorem test_decode_div : decodeTableWord 2 0b11 = some .div := by decide

/-- Section 2.1 of 95_test_vectors.md: the row of every dispatch word, 0x00 to 0x1F. -/
theorem test_decode_table :
    (List.range 32).map (fun w => (decode (.dispatch (BitVec.ofNat 5 w))).row.mnemonic) =
      ["RELEASE_OPI", "CONFIRM", "RELEASE_OPI", "APPEND0", "RELEASE_OPI", "APPEND1", "RELEASE_OPI", "BACKSPACE"] ++
      ["RELEASE_OPI", "CONFIRM", "RELEASE_OPI", "APPEND0", "RELEASE_OPI", "APPEND1", "RELEASE_OPI", "BACKSPACE"] ++
      ["RELEASE_OPS", "CONFIRM_OP", "RELEASE_OPS", "CYCLE", "RELEASE_OPS", "UNBOUND", "RELEASE_OPS", "UNBOUND"] ++
      ["HELD", "HELD", "HELD", "HELD", "HELD", "HELD", "HELD", "HELD"] := by decide

theorem test_decode_rejects_wide_dispatch : decodeTableWord 5 0b100000 = none := by decide
theorem test_decode_rejects_wide_alu : decodeTableWord 2 0b100 = none := by decide
theorem test_decode_rejects_width : decodeSized 3 0b001 = .error (.noFormat 3) := by decide

/-- The event words of section 2.1: `P0, U0, P1, U1, P2, U2, P3, U3`. -/
theorem test_event_words :
    allLines.flatMap (fun k => [eventWord k .falling, eventWord k .rising]) =
      [0b001, 0b000, 0b011, 0b010, 0b101, 0b100, 0b111, 0b110] := by decide

/-- The first operand of program P1: `A1 A0 A1 CONF`. -/
theorem test_script_p1 :
    encodeScript [.a1, .a0, .a1, .conf] = [0b101, 0b100, 0b011, 0b010, 0b101, 0b100, 0b001, 0b000] := by decide

/-! ### One step of each instruction -/

/-- E10. -/
theorem test_confirm :
    after (exec (.confirm .firstOperandInput) (editing 0b101 3)) (fun t => (edited t, t.keep, t.q.l0, t.ready.l0)) =
      some ((0b101, 3, ⟨false, true, false, true⟩), false, [], false) := by decide

/-- E2. -/
theorem test_append0 :
    after (exec (.append0 .firstOperandInput) (editing 0b101 3)) edited =
      some (0b101, 4, ⟨false, true, false, true⟩) := by decide

/-- E6. -/
theorem test_append0_full :
    after (exec (.append0 .firstOperandInput) (editing 0xFFFFFFFFFFFFFFFF 64)) edited =
      some (0xFFFFFFFFFFFFFFFF, 64, ⟨true, true, true, true⟩) := by decide

/-- E8. -/
theorem test_append1_last :
    after (exec (.append1 .firstOperandInput) (editing 0x7FFFFFFFFFFFFFFF 63)) edited =
      some (0xFFFFFFFFFFFFFFFF, 64, ⟨true, true, true, true⟩) := by decide

/-- E5. -/
theorem test_append1_full :
    after (exec (.append1 .firstOperandInput) (editing 0xFFFFFFFFFFFFFFFF 64)) edited =
      some (0xFFFFFFFFFFFFFFFF, 64, ⟨true, true, true, true⟩) := by decide

/-- E7. -/
theorem test_backspace :
    after (exec (.backspace .firstOperandInput) (editing 0xFFFFFFFFFFFFFFFF 64)) edited =
      some (0x7FFFFFFFFFFFFFFF, 63, ⟨true, true, true, true⟩) := by decide

/-- E4. -/
theorem test_backspace_empty :
    after (exec (.backspace .firstOperandInput) (editing 0 0)) edited =
      some (0, 0, ⟨false, false, false, false⟩) := by decide

/-- DS3: only the event goes. -/
theorem test_releaseOpi :
    after (exec (.releaseOpi .firstOperandInput .l1) (editing 0b11 2)) (fun t => (edited t, t.keep, t.q.l1, t.trace)) =
      some ((0b11, 2, ⟨false, false, true, true⟩), true, [], [.consume .l1 .rising]) := by decide

/-- O5. -/
theorem test_confirmOp :
    after (exec .confirmOp (selecting 2)) (fun t => (t.op, t.lamps, t.keep)) =
      some (2, ⟨false, false, true, false⟩, false) := by decide

/-- O2. -/
theorem test_cycle :
    after (exec .cycle (selecting 1)) (fun t => (t.op, t.lamps)) = some (2, ⟨false, false, true, false⟩) := by decide

/-- O4. -/
theorem test_cycle_wraps :
    after (exec .cycle (selecting 3)) (fun t => (t.op, t.lamps)) = some (0, ⟨false, false, false, false⟩) := by decide

/-- DS4: no lamp write, only the event goes. -/
theorem test_unbound :
    after (exec (.unbound .l3) (selecting 1)) (fun t => (t.op, t.keep, t.q.l3, t.trace)) =
      some (1, true, [], [.consume .l3 .falling]) := by decide

/-- 43_op_selector.md R153. -/
theorem test_releaseOps :
    after (exec (.releaseOps .l0) (selecting 1)) (fun t => (t.op, t.keep, t.q.l0, t.trace)) =
      some (1, true, [], [.consume .l0 .rising]) := by decide

/-- 45_output_encoder.md R190: the event stays queued. -/
theorem test_held :
    after (exec (.held .l2 .falling) (editing 0b11 2)) (fun t => (edited t, t.q.l2, t.trace)) =
      some ((0b11, 2, ⟨false, false, true, true⟩), [.falling], []) := by decide

/-- Section 2.6 of 95_test_vectors.md, the second row: the carry out is lost. -/
theorem test_add_wraps : after (exec .add (operands 0xFFFFFFFFFFFFFFFF 1)) (·.result) = some 0 := by decide
/-- W1. -/
theorem test_add : after (exec .add (operands 3 5)) (·.result) = some 8 := by decide
/-- W2. -/
theorem test_sub : after (exec .sub (operands 5 3)) (·.result) = some 2 := by decide
/-- W2. -/
theorem test_sub_wraps : after (exec .sub (operands 3 5)) (·.result) = some 0xFFFFFFFFFFFFFFFE := by decide
/-- W3. -/
theorem test_mul : after (exec .mul (operands 6 7)) (·.result) = some 42 := by decide
/-- Section 2.6: the low 64 bits of the product. -/
theorem test_mul_wraps :
    after (exec .mul (operands 0x123456789ABCDEF0 0x10)) (·.result) = some 0x23456789ABCDEF00 := by decide
/-- Section 2.6: the floor quotient. -/
theorem test_div :
    after (exec .div (operands 0xFFFFFFFFFFFFFFFF 2)) (fun t => (t.result, t.trace)) =
      some (0x7FFFFFFFFFFFFFFF, []) := by decide
/-- W5. -/
theorem test_div_zero :
    after (exec .div (operands 7 0)) (fun t => (t.result, t.trace, t.status)) =
      some (0, [.divZeroLog], .running) := by decide

/-! ### Steps of the block -/

/-- PM2. -/
theorem test_second_entry :
    after (step { base with phase := .secondOperandInput, operand0 := 5, operand1 := 9, bidx := 3 })
      (fun t => (t.cur, t.bidx, t.operand0, t.operand1, t.ctl)) = some (.one, 0, 5, 0, .wait) := by decide

/-- PM5. -/
theorem test_display_entry :
    after (step { base with phase := .resultDisplay, operand0 := 7, op := 3 }) (fun t => (t.result, t.trace, t.ctl)) =
      some (0, [.divZeroLog], .shine1 0 .on) := by decide

/-- DS2. -/
theorem test_wake :
    after (step { base with ctl := .wait, q := ⟨[], [], [.falling], []⟩ }) (fun t => (t.ready, t.ctl)) =
      some (Lanes.single .l2, .service) := by decide

/-- PM7. -/
theorem test_cycle_end :
    after (step { base with phase := .operationSelection, ctl := .service, keep := false }) (fun t => (t.phase, t.ctl)) =
      some (.resultDisplay, .entry) := by decide

/-- DS5, up to the phase exit: the append in the Confirm's wake cycle is applied. -/
theorem test_confirm_and_append :
    after (Host.Core.run core 4 { base with ctl := .wait, operand0 := 3, bidx := 2, q := ⟨[.falling], [], [.falling], []⟩ })
      (fun t => (t.operand0, t.bidx, t.phase, t.trace)) =
      some (7, 3, .secondOperandInput,
        [.consume .l0 .falling, .consume .l2 .falling, .lamps ⟨false, true, true, true⟩]) := by decide

/-- DS7: a CYCLE in the wake cycle of a CONFIRM_OP changes the operation. -/
theorem test_confirmOp_and_cycle :
    after (Host.Core.run core 4 { selecting 0 with ctl := .wait, q := ⟨[.falling], [.falling], [], []⟩ })
      (fun t => (t.op, t.lamps, t.phase)) = some (1, ⟨false, false, false, true⟩, .resultDisplay) := by decide

/-- X3. -/
theorem test_bit_one :
    after (step (displaying (.bit 3 .hold) 8)) (fun t => (t.trace, t.ctl)) =
      some ([.lamps ⟨true, true, false, false⟩, .pause .bit], .bit 3 .gap) := by decide

/-- X4. -/
theorem test_bit_zero :
    after (step (displaying (.bit 2 .hold) 8)) (·.trace) =
      some [.lamps ⟨false, false, true, true⟩, .pause .bit] := by decide

/-- X5. -/
theorem test_last_gap :
    after (step (displaying (.bit 63 .gap) 8)) (fun t => (t.trace, t.ctl)) =
      some ([.lamps lampsOff, .pause .gap], .shine2 0 .on) := by decide

/-- X6. -/
theorem test_last_shine1 :
    after (step (displaying (.shine1 11 .off) 8)) (fun t => (t.trace, t.ctl)) =
      some ([.lamps lampsOff, .pause .shineOff], .bit 0 .hold) := by decide

/-- PM6. -/
theorem test_last_shine2 :
    after (step (displaying (.shine2 11 .off) 8)) (fun t => (t.phase, t.ctl)) =
      some (.firstOperandInput, .entry) := by decide

/-- F3: the edit stays, the lines are released. -/
theorem test_failing_render :
    after (exec (.append1 .firstOperandInput) { editing 0 0 with draws := [false, true] })
      (fun t => ((t.operand0, t.bidx, t.status), (t.acquiredIn, t.acquiredOut), t.trace)) =
      some ((1, 1, .halted .io), (Lanes.all false, Lanes.all false),
        [.consume .l2 .falling, .exit .failure]) := by decide

/-- F4: the event stays queued. -/
theorem test_failing_wait :
    after (step { base with ctl := .wait, q := ⟨[.falling], [], [], []⟩, draws := [true] })
      (fun t => (t.q.l0, t.status, t.trace)) = some ([.falling], .halted .io, [.exit .failure]) := by decide

/-- F5: no pause follows a failed write. -/
theorem test_failing_bit :
    after (step { displaying (.bit 10 .hold) 8 with draws := [true] }) (·.trace) = some [.exit .failure] := by decide

/-- F1. -/
theorem test_failing_setup :
    (setup (List.replicate 10 false ++ [true]) []).calls.drop 11 =
      [.closeInput .l0, .closeInput .l1, .closeInput .l2, .closeInput .l3, .closeOutput .l0, .closeOutput .l1] := by decide

/-- F2. -/
theorem test_failing_edge_detection :
    (setup [false, false, false, true] []).calls.drop 4 = [.closeInput .l0, .closeInput .l1] := by decide

/-- A placed dispatch word is what the next step runs: BACKSPACE. -/
theorem test_fetch_dispatch :
    action (deliver (base.withFetchWord 5 0b00111)) = .run (.backspace .firstOperandInput) := by decide

/-- A placed ALU word is what the next step runs: MULTIPLY. -/
theorem test_fetch_alu : action (deliver (base.withFetchWord 2 0b10)) = .run .mul := by decide

/-- A placed HELD word is what the next step runs. -/
theorem test_fetch_held : action (deliver (base.withFetchWord 5 0b11101)) = .run (.held .l2 .falling) := by decide

/-! ### Witnesses: the hypotheses of each statement, met together, at boundary values and for each clause -/

/-- The first fallible primitive of the step fails. -/
def failingFirst (s : State) : State := { s with draws := [true] }

/-- The first fallible primitive of the step succeeds and the second fails. -/
def failingSecond (s : State) : State := { s with draws := [false, true] }

theorem succeeding_of {s : State} {n : Nat} (h : (s.draws.take n).all (! ·) = true) : s.succeeding n := by
  simpa [State.succeeding] using h

theorem neverFailing_of {s : State} (h : s.draws.all (! ·) = true) : s.neverFailing := by
  simpa [State.neverFailing] using h

/-- FirstOperandInput at WAIT, with `es` pending on line 1. -/
def waiting (es : List Edge) : State := { base with ctl := .wait, q := ⟨[], es, [], []⟩ }

theorem waiting_inv (es : List Edge) : StateInv (waiting es) where
  control := rfl
  cursor := by show (0 : Nat) ≤ 64; decide
  tail _ := rfl
  current _ := rfl
  noStop := rfl
  polling _ := rfl
  queued _ h := nomatch h
  held _ := ⟨rfl, rfl⟩
  released h := absurd rfl h
  shownOperand _ _ := by show lampsOff = nibble (windowValue 0 0); decide
  shownOp _ h := nomatch h.1

theorem editing_inv : StateInv (editing 0b101 3) where
  control := rfl
  cursor := by show (3 : Nat) ≤ 64; decide
  tail _ := by show (0b101#64 >>> 3) = 0; decide
  current _ := rfl
  noStop := rfl
  polling h := nomatch h
  queued _ _ k _ := by cases k <;> exact List.cons_ne_nil _ _
  held _ := ⟨rfl, rfl⟩
  released h := absurd rfl h
  shownOperand _ _ := rfl
  shownOp _ h := nomatch h.1

theorem witness_DecodeAndEncodeAgree :
    decodeRaw .dispatch 0b10111 = .ok (.unbound .l3) ∧ Instr.wellFormed (.unbound .l3) = true ∧
      decodeRaw .alu 0b11 = .ok .div := by decide

theorem witness_DecodedInstructionFollowsBindingTable :
    Phase.firstOperandInput ≠ .resultDisplay ∧ Phase.secondOperandInput ≠ .resultDisplay ∧
      Phase.operationSelection ≠ .resultDisplay := by decide

theorem witness_ConfirmReturnsFalse :
    (editing 0 64).succeeding 1 ∧ (failingFirst (editing 0 64)).draws = true :: [] :=
  ⟨succeeding_of (by decide), rfl⟩

theorem witness_Append0MovesCursor :
    (editing 0 0).succeeding 2 ∧ (editing 0 63).succeeding 2 ∧ (editing 0 64).succeeding 2 ∧
      (failingFirst (editing 0 63)).draws = true :: [] ∧ (failingSecond (editing 0 63)).draws = false :: true :: [] :=
  ⟨succeeding_of (by decide), succeeding_of (by decide), succeeding_of (by decide), rfl, rfl⟩

theorem witness_Append1SetsBitAtCursor :
    (editing 0 0).succeeding 2 ∧ (editing 0 63).succeeding 2 ∧ (editing 0 64).succeeding 2 ∧
      (failingFirst (editing 0 64)).draws = true :: [] ∧ (failingSecond (editing 0 64)).draws = false :: true :: [] :=
  ⟨succeeding_of (by decide), succeeding_of (by decide), succeeding_of (by decide), rfl, rfl⟩

theorem witness_BackspaceClearsBitBelowCursor :
    (editing 0 0).succeeding 2 ∧ (editing 1 1).succeeding 2 ∧ (editing 0 64).succeeding 2 ∧
      (failingFirst (editing 0 0)).draws = true :: [] ∧ (failingSecond (editing 0 0)).draws = false :: true :: [] :=
  ⟨succeeding_of (by decide), succeeding_of (by decide), succeeding_of (by decide), rfl, rfl⟩

theorem witness_NoOpWordsOnlyConsume :
    (∃ p, Instr.releaseOpi .secondOperandInput .l3 = .releaseOpi p .l3 ∧ Edge.rising = .rising) ∧
      (Instr.releaseOps .l0 = .releaseOps .l0 ∧ Edge.rising = .rising) ∧
      (Instr.unbound .l2 = .unbound .l2 ∧ Edge.falling = .falling) ∧
      (editing 0 0).succeeding 1 ∧ (failingFirst (editing 0 0)).draws = true :: [] :=
  ⟨⟨_, rfl, rfl⟩, ⟨rfl, rfl⟩, ⟨rfl, rfl⟩, succeeding_of (by decide), rfl⟩

/-- Clean operands at the ends of the window, and a lamp above the cursor. -/
theorem witness_RenderShowsWindowBelowCursor :
    (editing 0b1 1).cleanTail ∧ (editing 0b1 1).bidx.toNat ≤ windowLow (editing 0b1 1).bidx + 3 - Line.l2.code.toNat ∧
      (editing 0xFFFFFFFFFFFFFFFF 64).cleanTail ∧ (editing 0 0).succeeding 1 :=
  ⟨by show (0b1#64 >>> 1) = 0; decide, by decide, by show (0xFFFFFFFFFFFFFFFF#64 >>> 64) = 0; decide,
    succeeding_of (by decide)⟩

theorem witness_EditCommandsStayInBounds :
    (editing 0 64).bidx.toNat ≤ 64 ∧ (∃ t, exec (.append1 .firstOperandInput) (editing 0 63) = .next t) ∧
      (∃ t, exec (.backspace .firstOperandInput) (failingSecond (editing 1 1)) = .next t) ∧
      (∃ t, exec (.confirm .firstOperandInput) (editing 0 64) = .next t) ∧
      ∃ t, exec (.append0 .firstOperandInput) (editing 0 64) = .next t :=
  ⟨by decide, ⟨_, rfl⟩, ⟨_, rfl⟩, ⟨_, rfl⟩, ⟨_, rfl⟩⟩

theorem witness_AppendsBuildOperandLsbFirst :
    base.bidx = 0 ∧ base.operand base.cur = 0 ∧ base.neverFailing := ⟨rfl, rfl, neverFailing_of (by decide)⟩

theorem witness_BackspaceUndoesAppend :
    (editing 0b101 63).bidx.toNat < 64 ∧ (editing 0b101 63).cleanTail ∧ (editing 0b101 63).neverFailing :=
  ⟨by decide, by show (0b101#64 >>> 63) = 0; decide, neverFailing_of (by decide)⟩

theorem witness_ConfirmOpReturnsFalse :
    (selecting 2).succeeding 1 ∧ (failingFirst (selecting 2)).draws = true :: [] := ⟨succeeding_of (by decide), rfl⟩

theorem witness_CycleAdvancesOperation :
    (selecting 3).succeeding 2 ∧ (failingFirst (selecting 3)).draws = true :: [] ∧
      (failingSecond (selecting 3)).draws = false :: true :: [] := ⟨succeeding_of (by decide), rfl, rfl⟩

theorem witness_CyclingIsModuloFour : (selecting 0).neverFailing := neverFailing_of (by decide)

/-- One step that writes `op` at entry, one by CYCLE. -/
theorem witness_OperationWrittenOnlyByEntryAndCycle :
    (∃ t, step { selecting 3 with ctl := .entry } = .next t ∧ t.op = 0) ∧
      ∃ t, step { selecting 3 with ready := Lanes.single .l1 } = .next t ∧ t.op ≠ 3 :=
  ⟨⟨_, rfl, by decide⟩, ⟨_, rfl, by decide⟩⟩

theorem witness_DivWritesQuotient : (operands 7 0).operand1 = 0 ∧ (operands 7 2).operand1 ≠ 0 := by decide

theorem witness_ArithmeticLaws :
    2 ^ 64 ≤ (0xFFFFFFFFFFFFFFFF : Word).toNat + (1 : Word).toNat ∧
      (0xFFFFFFFFFFFFFFFF : Word).toNat + (0 : Word).toNat < 2 ^ 64 ∧ (1 : Word) ≠ 0 := by decide

theorem witness_DisplayEntryComputesResult :
    (displaying .entry 0).status = .running ∧ (displaying .entry 0).stop = false ∧
      (displaying .entry 0).phase = .resultDisplay ∧ (displaying .entry 0).ctl = .entry := by decide

theorem witness_NibbleMapsBitsToLamps : base.succeeding 1 ∧ (failingFirst base).draws = true :: [] :=
  ⟨succeeding_of (by decide), rfl⟩

/-- The first and the last cycle of a flourish. -/
theorem witness_FirstFlourishSteps :
    ∀ i : Fin 12, (displaying (.shine1 i .on) 0).status = .running ∧ (displaying (.shine1 i .on) 0).phase = .resultDisplay ∧
      (displaying (.shine1 i .on) 0).succeeding 1 ∧ (displaying (.shine1 i .off) 0).succeeding 1 ∧
      (failingFirst (displaying (.shine1 i .off) 0)).draws = true :: [] :=
  fun _ => ⟨rfl, rfl, succeeding_of rfl, succeeding_of rfl, rfl⟩

theorem witness_SecondFlourishSteps :
    ∀ i : Fin 12, (displaying (.shine2 i .on) 0).status = .running ∧ (displaying (.shine2 i .on) 0).phase = .resultDisplay ∧
      (displaying (.shine2 i .on) 0).succeeding 1 ∧ (displaying (.shine2 i .off) 0).succeeding 1 ∧
      (failingFirst (displaying (.shine2 i .off) 0)).draws = true :: [] :=
  fun _ => ⟨rfl, rfl, succeeding_of rfl, succeeding_of rfl, rfl⟩

theorem witness_SerialTransmissionSteps :
    ∀ j : Fin 64, (displaying (.bit j .hold) 8).status = .running ∧ (displaying (.bit j .hold) 8).phase = .resultDisplay ∧
      (displaying (.bit j .hold) 8).succeeding 1 ∧ (displaying (.bit j .gap) 8).succeeding 1 ∧
      (failingFirst (displaying (.bit j .gap) 8)).draws = true :: [] :=
  fun _ => ⟨rfl, rfl, succeeding_of rfl, succeeding_of rfl, rfl⟩

theorem witness_ResultDisplayRunsAndEmits :
    (displaying .entry 0).status = .running ∧ (displaying .entry 0).stop = false ∧
      (displaying .entry 0).phase = .resultDisplay ∧ (displaying .entry 0).ctl = .entry ∧
      (displaying .entry 0).neverFailing := ⟨rfl, rfl, rfl, rfl, neverFailing_of rfl⟩

theorem witness_DisplayConsumesNoEvent :
    (displaying (.bit 0 .hold) 8).phase = .resultDisplay ∧
      ∃ t, step { displaying (.bit 0 .hold) 8 with q := Lanes.all [.falling] } = .next t := ⟨rfl, ⟨_, rfl⟩⟩

/-- With nothing to arrive, and with a turn in which nothing arrives. -/
theorem witness_WaitHoldsWhileQueuesEmpty :
    (waiting []).status = .running ∧ (waiting []).ctl = .wait ∧ (waiting []).phase ≠ .resultDisplay ∧
      (∀ k, (deliver (waiting [])).q.get k = []) ∧ (waiting []).arrivals = [] ∧
      ∀ k, (deliver { waiting [] with arrivals := [[], [⟨.l0, .falling⟩]] }).q.get k = [] :=
  ⟨rfl, rfl, by decide, fun k => by cases k <;> rfl, rfl, fun k => by cases k <;> rfl⟩

theorem witness_WakeTakesReadySnapshot :
    (waiting [.rising]).status = .running ∧ (waiting [.rising]).ctl = .wait ∧ (waiting [.rising]).phase ≠ .resultDisplay ∧
      (∃ k, (deliver (waiting [.rising])).q.get k ≠ []) ∧ (waiting [.rising]).succeeding 1 ∧
      (failingFirst (waiting [.rising])).draws = true :: [] :=
  ⟨rfl, rfl, by decide, ⟨.l1, by decide⟩, succeeding_of (by decide), rfl⟩

/-- Each of the three clauses. -/
theorem witness_StepRunsDecodedInstruction :
    ((editing 0 0).status = .running ∧ (editing 0 0).phase ≠ .resultDisplay ∧ (editing 0 0).ctl = .service ∧
      (editing 0 0).ready.lowest = some .l0 ∧ (deliver (editing 0 0)).q.get .l0 = .falling :: []) ∧
    ((displaying .entry 0).status = .running ∧ (displaying .entry 0).phase = .resultDisplay ∧
      (displaying .entry 0).ctl = .entry ∧ (displaying .entry 0).stop = false) ∧
    let s : State := { displaying (.shine2 11 .off) 0 with q := Lanes.all [.rising] }
    s.status = .running ∧ s.phase = .resultDisplay ∧ ctlOccurs s.phase s.ctl = true ∧ s.ctl ≠ .entry ∧
      (deliver s).q.pending.lowest = some .l0 ∧ (deliver s).q.get .l0 = .rising :: [] := by decide

theorem witness_ServiceTakesLowestLineOnce :
    (editing 0 0).ctl = .service ∧ (editing 0 0).phase ≠ .resultDisplay ∧ (editing 0 0).ready ≠ Lanes.all false ∧
      ∃ t, step (editing 0 0) = .next t ∧ t.status = .running := ⟨rfl, by decide, by decide, ⟨_, rfl, rfl⟩⟩

theorem witness_KeepClearedOnlyByConfirm :
    Phase.operationSelection ≠ .resultDisplay ∧ (selecting 1).status = .running ∧
      ∃ t, exec (decode (.dispatch (dispatchWord .operationSelection .l0 .falling))) (selecting 1) = .next t ∧
        t.status = .running := ⟨by decide, rfl, ⟨_, rfl, rfl⟩⟩

/-- Both values of `keep`. -/
theorem witness_EndOfWakeCycle :
    ∀ b : Bool, let s : State := { editing 0 0 with ready := Lanes.all false, keep := b }
      s.status = .running ∧ s.ctl = .service ∧ s.phase ≠ .resultDisplay ∧ s.ready = Lanes.all false ∧ s.keep = b :=
  fun _ => ⟨rfl, rfl, by show Phase.firstOperandInput ≠ .resultDisplay; decide, rfl, rfl⟩

/-- Each of the lines 1 to 3 in an operand phase, at both bounds of the cursor, and line 1 in OperationSelection. -/
theorem witness_EditInConfirmCycleIsApplied :
    (∀ k : Line, ∀ b : BitVec 7, b = 0 ∨ b = 63 ∨ b = 64 →
      let s : State := { editing 0 b with ready := (Lanes.single .l0).set k true }
      s.status = .running ∧ s.ctl = .service ∧ s.neverFailing ∧ s.ready = (Lanes.single .l0).set k true ∧
        s.q.get .l0 = .falling :: [] ∧ s.q.get k = .falling :: [] ∧ s.phase.isOperand = true) ∧
    (Line.l1 ≠ .l0 ∧ Line.l2 ≠ .l0 ∧ Line.l3 ≠ .l0) ∧
    let s : State := { selecting 3 with ready := (Lanes.single .l0).set .l1 true }
    s.status = .running ∧ s.ctl = .service ∧ s.neverFailing ∧ s.ready = (Lanes.single .l0).set .l1 true ∧
      s.q.get .l0 = .falling :: [] ∧ s.q.get .l1 = .falling :: [] ∧ s.phase = .operationSelection ∧ s.stop = false :=
  ⟨fun k _ _ => ⟨rfl, rfl, neverFailing_of rfl, rfl, rfl, by cases k <;> rfl, rfl⟩, by decide,
    rfl, rfl, neverFailing_of rfl, rfl, rfl, rfl, rfl, rfl⟩

theorem witness_ArrivalsKeepLineOrder :
    StateInv (waiting [.falling]) ∧
      ({ waiting [] with arrivals := [[⟨.l0, .falling⟩], []] } : State).arrivals = [⟨.l0, .falling⟩] :: [[]] :=
  ⟨waiting_inv _, rfl⟩

theorem witness_FirstOperandEntry :
    base.status = .running ∧ base.stop = false ∧ base.phase = .firstOperandInput ∧ base.ctl = .entry ∧
      base.succeeding 1 ∧ (failingFirst base).draws = true :: [] :=
  ⟨rfl, rfl, rfl, rfl, succeeding_of rfl, rfl⟩

theorem witness_SecondOperandEntry :
    let s : State := { base with phase := .secondOperandInput }
    s.status = .running ∧ s.stop = false ∧ s.phase = .secondOperandInput ∧ s.ctl = .entry ∧
      s.succeeding 1 ∧ (failingFirst s).draws = true :: [] :=
  ⟨rfl, rfl, rfl, rfl, succeeding_of rfl, rfl⟩

theorem witness_OperationSelectionEntry :
    let s : State := { base with phase := .operationSelection }
    s.status = .running ∧ s.stop = false ∧ s.phase = .operationSelection ∧ s.ctl = .entry ∧
      s.succeeding 1 ∧ (failingFirst s).draws = true :: [] :=
  ⟨rfl, rfl, rfl, rfl, succeeding_of rfl, rfl⟩

/-- A phase exit at the end of a wake cycle, and the wrap at the end of the display. -/
theorem witness_PhaseWrittenOnlyAtHandlerReturn :
    (∃ t, step { editing 0 0 with ready := Lanes.all false, keep := false } = .next t ∧ t.phase ≠ .firstOperandInput) ∧
      ∃ t, step (displaying (.shine2 11 .off) 0) = .next t ∧ t.phase ≠ .resultDisplay :=
  ⟨⟨_, rfl, by decide⟩, ⟨_, rfl, by decide⟩⟩

theorem witness_StopIsNeverWritten : ∃ t, step (editing 0 0) = .next t := ⟨_, rfl⟩

theorem witness_StopFlagEndsTheRun :
    let s : State := { base with stop := true }
    s.status = .running ∧ s.ctl = .entry ∧ s.stop = true := by decide

theorem witness_OperandsFrozenOutsideTheirPhase :
    StateInv (editing 0b101 3) ∧
      ∃ t, step { editing 0b101 3 with ready := Lanes.single .l2 } = .next t ∧ t.operand0 ≠ 0b101 :=
  ⟨editing_inv, ⟨_, rfl, by decide⟩⟩

theorem witness_TerminalStatusHasNoStep :
    ({ base with status := .halted .io } : State).status ≠ .running ∧
      ({ base with status := .stopped } : State).status ≠ .running := by decide

/-- A step that goes on, one that halts and one that stops. -/
theorem witness_OnlyIoHaltsAStep :
    (∃ t, step base = .next t ∧ t.status = .running) ∧
      (∃ t, step (failingFirst base) = .next t ∧ t.status = .halted .io) ∧
      ∃ t, step { base with stop := true } = .next t ∧ t.status = .stopped :=
  ⟨⟨_, rfl, rfl⟩, ⟨_, rfl, rfl⟩, ⟨_, rfl, rfl⟩⟩

theorem witness_ExitOnceAndLast :
    (∃ t, step base = .next t ∧ t.status = .running) ∧
      (∃ t, step (failingSecond (editing 0 0)) = .next t) ∧
      ∃ t, step { base with stop := true } = .next t ∧ t.status = .stopped :=
  ⟨⟨_, rfl, rfl⟩, ⟨_, rfl⟩, ⟨_, rfl, rfl⟩⟩

/-- The first and the last call of setup fail. -/
theorem witness_SetupAcquiresOrReleasesAll :
    (∀ b ∈ (List.replicate 12 false).take 12, b = false) ∧ (0 < 12 ∧ 11 < 12) := by decide

theorem witness_EveryStepKeepsInvariant :
    StateInv (editing 0b101 3) ∧ ∃ t, step (editing 0b101 3) = .next t := ⟨editing_inv, ⟨_, rfl⟩⟩

theorem witness_RunningBlockAlwaysSteps : StateInv (waiting []) ∧ (waiting []).status = .running :=
  ⟨waiting_inv _, rfl⟩

/-- A run that halts in its first step, and one of a failed setup. -/
theorem witness_EveryRunKeepsInvariant :
    (∃ t, Host.Core.run core 1 (setup (List.replicate 12 false ++ [true]) []) = .next t) ∧
      ∃ t, Host.Core.run core 0 (setup [true] []) = .next t := ⟨⟨_, rfl⟩, ⟨_, rfl⟩⟩

end Sys2Proof.Tests
end

section
/-! The end of a wake cycle (41_dispatcher.md R116). -/

namespace Sys2Proof.Proofs

open Sys2Proof.Machine

/-- In the phases a dispatcher runs, SERVICE takes the action of servicing. -/
theorem action_of_service {u : State} (hrun : u.status = .running) (hctl : u.ctl = .service)
    (hphase : u.phase ≠ .resultDisplay) : action u = serviceAction u := by
  rw [action, hrun]
  cases hp : u.phase with
  | resultDisplay => exact absurd hp hphase
  | firstOperandInput => simp only [phaseAction, hctl, hp]
  | secondOperandInput => simp only [phaseAction, hctl, hp]
  | operationSelection => simp only [phaseAction, hctl, hp]

/-- With `S` empty, servicing is over and the wake cycle ends. -/
theorem serviceAction_of_ready_empty {u : State} (hready : u.ready = Lanes.all false) :
    serviceAction u = .own (endCycle u) := by
  simp only [serviceAction, (Lanes.lowest_eq_none_iff _).2 hready]

/-- At SERVICE with `S` empty, the step ends the wake cycle of the state the environment leaves. -/
theorem step_eq_endCycle {s : State} (hrun : s.status = .running) (hctl : s.ctl = .service)
    (hphase : s.phase ≠ .resultDisplay) (hready : s.ready = Lanes.all false) :
    step s = .next (endCycle (deliver s)) := by
  have hservice : action (deliver s) = serviceAction (deliver s) :=
    action_of_service (by rwa [deliver_status]) (by rwa [deliver_ctl]) (by rwa [deliver_phase])
  rw [step, hservice, serviceAction_of_ready_empty (by rwa [deliver_ready]), perform]

theorem endCycle_of_keep {u : State} (h : u.keep = true) : endCycle u = { u with ctl := .wait } := by
  rw [endCycle, if_pos h, State.goto]

theorem endCycle_of_not_keep {u : State} (h : u.keep = false) :
    endCycle u = { u with phase := nextPhase u.phase, ctl := .entry } := by
  rw [endCycle, if_neg (by simp [h]), State.exitPhase]

/-- Settles O40: the step is `endCycle`, whose two branches are R116's, and the environment's turn before it leaves `keep`
and `phase` alone. -/
theorem endOfWakeCycle : Obligations.EndOfWakeCycle := by
  intro s hrun hctl hphase hready
  rw [step_eq_endCycle hrun hctl hphase hready]
  constructor
  · intro hkeep
    rw [endCycle_of_keep (by rwa [deliver_keep])]
  · intro hkeep
    rw [endCycle_of_not_keep (by rwa [deliver_keep]), deliver_phase]

end Sys2Proof.Proofs
end

section
/-! The ALU's encodings, and its sum, difference and product as numbers modulo 2^64 (44_alu.md R166 to R168). -/

namespace Sys2Proof.Proofs

open Sys2Proof.Machine

/-! ### The encoding -/

/-- No two ALU words name one operation (30_encoding.md R70, R71). -/
theorem decodeAlu_injective : Function.Injective decodeAlu := by
  unfold Function.Injective
  decide

/-- The mask 0b11 covers the ALU word, so a word matches `c` under it exactly when it decodes as `c` does. -/
theorem alu_matches_iff (o c : BitVec 2) : o &&& 0b11#2 = c ↔ decode (.alu o) = decode (.alu c) := by
  have hmask : o &&& 0b11#2 = o := BitVec.and_allOnes
  rw [hmask]
  exact decodeAlu_injective.eq_iff.symm

/-! ### The results as numbers -/

theorem addResult_eq_ofNat (a b : Word) : addResult a b = BitVec.ofNat 64 ((a.toNat + b.toNat) % 2 ^ 64) := by
  apply BitVec.eq_of_toNat_eq
  rw [addResult, BitVec.toNat_add, BitVec.toNat_ofNat, Nat.mod_mod]

theorem mulResult_eq_ofNat (a b : Word) : mulResult a b = BitVec.ofNat 64 ((a.toNat * b.toNat) % 2 ^ 64) := by
  apply BitVec.eq_of_toNat_eq
  rw [mulResult, BitVec.toNat_mul, BitVec.toNat_ofNat, Nat.mod_mod]

/-- The difference is taken over the integers, so that a borrow is the wrap of a negative number. -/
theorem subResult_eq_ofInt (a b : Word) :
    subResult a b = BitVec.ofInt 64 (((a.toNat : Int) - b.toNat) % 2 ^ 64) := by
  apply BitVec.eq_of_toNat_eq
  rw [subResult, BitVec.toNat_sub, BitVec.toNat_ofInt]
  omega

/-! ### The instructions -/

theorem exec_add (s : State) : exec .add s = .next (s.setResult (addResult s.operand0 s.operand1)) := rfl

theorem exec_sub (s : State) : exec .sub s = .next (s.setResult (subResult s.operand0 s.operand1)) := rfl

theorem exec_mul (s : State) : exec .mul s = .next (s.setResult (mulResult s.operand0 s.operand1)) := rfl

/-- Settles O20: the word 0b00 alone decodes as ADD, and `setResult` of the sum, as a number, is ADD's whole effect. -/
theorem addWritesSum : Obligations.AddWritesSum := by
  constructor
  · intro o
    exact alu_matches_iff o 0b00#2
  · intro s
    rw [exec_add, addResult_eq_ofNat, State.setResult]

/-- Settles O21: the word 0b01 alone decodes as SUBTRACT, and `setResult` of the difference, as an integer, is its whole
effect. -/
theorem subWritesDifference : Obligations.SubWritesDifference := by
  constructor
  · intro o
    exact alu_matches_iff o 0b01#2
  · intro s
    rw [exec_sub, subResult_eq_ofInt, State.setResult]

/-- Settles O22: the word 0b10 alone decodes as MULTIPLY, and `setResult` of the product, as a number, is its whole
effect. -/
theorem mulWritesProduct : Obligations.MulWritesProduct := by
  constructor
  · intro o
    exact alu_matches_iff o 0b10#2
  · intro s
    rw [exec_mul, mulResult_eq_ofNat, State.setResult]

end Sys2Proof.Proofs
end

section
/-! The graceful stop at the loop head (60_exceptions.md R205). -/

namespace Sys2Proof.Proofs

open Sys2Proof.Machine

/-- At the loop head, the stop check comes before the entry action of any phase (40_phase_machine.md R91). -/
theorem action_of_entry_stop {u : State} (hrun : u.status = .running) (hctl : u.ctl = .entry)
    (hstop : u.stop = true) : action u = .own u.gracefulStop := by
  have hhead : action u = loopHead u := by simp only [action, hrun, phaseAction, hctl]
  rw [hhead, loopHead, if_pos hstop]

/-- At the loop head with `stop = 1`, the step is the graceful stop of the state the environment leaves. -/
theorem step_eq_gracefulStop {s : State} (hrun : s.status = .running) (hctl : s.ctl = .entry)
    (hstop : s.stop = true) : step s = .next (deliver s).gracefulStop := by
  have hact : action (deliver s) = .own (deliver s).gracefulStop :=
    action_of_entry_stop (by rwa [deliver_status]) (by rwa [deliver_ctl]) (by rwa [deliver_stop])
  rw [step, hact, perform]

/-- Arrivals acquire and release no line, so the cleanup after them closes the same ones. -/
@[simp] theorem deliver_closeCalls (s : State) : (deliver s).closeCalls = s.closeCalls := by
  rw [State.closeCalls, deliver_acquiredIn, deliver_acquiredOut, State.closeCalls]

/-- Settles O48: the step is `gracefulStop`, which cleans up, stops and exits with 0, and the environment's turn before it
leaves `calls`, `trace` and the acquired lines alone. -/
theorem stopFlagEndsTheRun : Obligations.StopFlagEndsTheRun := by
  intro s hrun hctl hstop
  refine ⟨(deliver s).gracefulStop, step_eq_gracefulStop hrun hctl hstop, State.gracefulStop_status _,
    State.gracefulStop_acquiredIn _, State.gracefulStop_acquiredOut _, ?calls, ?trace, rfl⟩
  case calls => rw [State.gracefulStop_calls, deliver_calls, deliver_closeCalls]
  case trace => rw [State.gracefulStop_trace, deliver_trace]

end Sys2Proof.Proofs
end

section
/-! Words and instructions: decoding and encoding are inverse on well-formed instructions (30_encoding.md R65 to R72). -/

namespace Sys2Proof.Proofs

/-! ### Words as numbers of a format -/

theorem codeWord_bits_lt (c : CodeWord) : c.bits < 2 ^ c.format.width := by
  cases c with
  | dispatch d => exact d.isLt
  | alu o => exact o.isLt

/-- A number that fits is decoded as the word it is. -/
theorem decodeRaw_bits (c : CodeWord) : decodeRaw c.format c.bits = .ok (decode c) := by
  cases c with
  | dispatch d =>
    have hfits : d.toNat < 2 ^ Format.dispatch.width := codeWord_bits_lt (.dispatch d)
    simp only [CodeWord.format, decodeRaw, CodeWord.bits, if_pos hfits, BitVec.ofNat_toNat, BitVec.setWidth_eq]
  | alu o =>
    have hfits : o.toNat < 2 ^ Format.alu.width := codeWord_bits_lt (.alu o)
    simp only [CodeWord.format, decodeRaw, CodeWord.bits, if_pos hfits, BitVec.ofNat_toNat, BitVec.setWidth_eq]

/-- Every number that fits a format is the bits of one of its words. -/
theorem exists_codeWord_of_lt (f : Format) {w : Nat} (h : w < 2 ^ f.width) :
    ∃ c : CodeWord, c.format = f ∧ c.bits = w := by
  cases f with
  | dispatch => exact ⟨.dispatch (BitVec.ofNat 5 w), rfl, Nat.mod_eq_of_lt h⟩
  | alu => exact ⟨.alu (BitVec.ofNat 2 w), rfl, Nat.mod_eq_of_lt h⟩

/-- A number with a bit above the format's width decodes to nothing. -/
theorem decodeRaw_ne_ok_of_tooWide {f : Format} {w : Nat} (h : ¬w < 2 ^ f.width) (i : Instr) :
    decodeRaw f w ≠ .ok i := by
  simp [decodeRaw, h]

/-! ### Decoder and encoder -/

theorem encode_decode (c : CodeWord) : encode (decode c) = c := by
  cases c with
  | dispatch d =>
    revert d
    decide
  | alu o =>
    revert o
    decide

theorem wellFormed_decode (c : CodeWord) : (decode c).wellFormed = true := by
  cases c with
  | dispatch d =>
    revert d
    decide
  | alu o =>
    revert o
    decide

/-- One case per instruction: the arguments of a well-formed one are read back from its word. -/
theorem decode_encode {i : Instr} (h : i.wellFormed = true) : decode (encode i) = i := by
  revert h
  cases i with
  | confirm p => cases p <;> decide
  | append0 p => cases p <;> decide
  | append1 p => cases p <;> decide
  | backspace p => cases p <;> decide
  | releaseOpi p k => cases p <;> cases k <;> decide
  | confirmOp => decide
  | cycle => decide
  | unbound k => cases k <;> decide
  | releaseOps k => cases k <;> decide
  | held k e => cases k <;> cases e <;> decide
  | add => decide
  | sub => decide
  | mul => decide
  | div => decide

theorem decode_eq_iff (c : CodeWord) (i : Instr) : decode c = i ↔ i.wellFormed = true ∧ encode i = c := by
  constructor
  · rintro rfl
    exact ⟨wellFormed_decode c, encode_decode c⟩
  · rintro ⟨hwf, rfl⟩
    exact decode_encode hwf

/-- A word is its format and its bits. -/
theorem codeWord_ext_bits {c d : CodeWord} (hf : c.format = d.format) (hb : c.bits = d.bits) : c = d := by
  cases c with
  | dispatch x =>
    cases d with
    | dispatch y => rw [BitVec.eq_of_toNat_eq (show x.toNat = y.toNat from hb)]
    | alu y => cases hf
  | alu x =>
    cases d with
    | dispatch y => cases hf
    | alu y => rw [BitVec.eq_of_toNat_eq (show x.toNat = y.toNat from hb)]

/-- Settles O4: a number that fits is one word of the format, and a word decodes to `i` exactly when it is the encoding of
a well-formed `i`; a number that does not fit is no word. -/
theorem decodeAndEncodeAgree : Obligations.DecodeAndEncodeAgree := by
  intro f w i
  by_cases hfits : w < 2 ^ f.width
  · obtain ⟨c, rfl, rfl⟩ := exists_codeWord_of_lt f hfits
    rw [decodeRaw_bits, Except.ok.injEq, decode_eq_iff]
    constructor
    · rintro ⟨hwf, rfl⟩
      exact ⟨hwf, rfl, rfl⟩
    · rintro ⟨hwf, hf, hb⟩
      exact ⟨hwf, codeWord_ext_bits hf hb⟩
  · constructor
    · intro h
      exact absurd h (decodeRaw_ne_ok_of_tooWide hfits i)
    · rintro ⟨-, rfl, rfl⟩
      exact absurd (codeWord_bits_lt _) hfits

/-! ### Event words and the dispatch map -/

/-- The fields of an event word are the line's code and the edge bit (30_encoding.md R65). -/
theorem eventWord_fields (k : Line) (e : Edge) :
    (eventWord k e).extractLsb' 1 2 = k.code ∧ (eventWord k e).getLsbD 0 = (e == Edge.falling) := by
  cases k <;> cases e <;> decide

@[simp] theorem decodeEvent_eventWord (k : Line) (e : Edge) : decodeEvent (eventWord k e) = (k, e) := by
  cases k <;> cases e <;> decide

/-- Settles O1. -/
theorem eventWordFields : Obligations.EventWordFields := by
  intro k e
  obtain ⟨hline, hfall⟩ := eventWord_fields k e
  exact ⟨hline, hfall, decodeEvent_eventWord k e, rfl, rfl, rfl, rfl⟩

/-- A word selects the row of the instruction it decodes to and no other, since it is that instruction's encoding. -/
theorem rows_selected_by_dispatch (d : BitVec 5) :
    opcodeTable.filter (fun r => r.selects .dispatch d.toNat) = [(decode (.dispatch d)).row] := by
  revert d
  decide

/-- Settles O2. -/
theorem dispatchMapPartitionsWords : Obligations.DispatchMapPartitionsWords :=
  ⟨rows_selected_by_dispatch, by decide⟩

/-- Settles O3: fixed words, evaluated. -/
theorem wordsFromTheTableDecode : Obligations.WordsFromTheTableDecode := by
  unfold Obligations.WordsFromTheTableDecode
  decide

/-! ### Press scripts -/

open Sys2Proof.Machine

theorem decodeEvents_encodeEvents (es : List (Line × Edge)) : decodeEvents (encodeEvents es) = es := by
  induction es with
  | nil => rfl
  | cons x xs ih =>
    obtain ⟨k, e⟩ := x
    simpa [decodeEvents, encodeEvents] using ih

theorem length_encodeEvents (es : List (Line × Edge)) : (encodeEvents es).length = es.length := List.length_map _

theorem length_encodeScript (ts : List Token) :
    (encodeScript ts).length = (ts.map fun x => x.events.length).sum := by
  rw [encodeScript, length_encodeEvents, scriptEvents, List.length_flatMap]

theorem encodeScript_append (ts us : List Token) : encodeScript (ts ++ us) = encodeScript ts ++ encodeScript us := by
  simp only [encodeScript, encodeEvents, scriptEvents, List.flatMap_append, List.map_append]

/-- The event words of an edge token, as numbers (30_encoding.md R76). -/
theorem encodeScript_edge (k : Line) :
    (encodeScript [.fall k]).map BitVec.toNat = [k.code.toNat <<< 1 ||| 1] ∧
    (encodeScript [.rise k]).map BitVec.toNat = [k.code.toNat <<< 1 ||| 0] := by
  cases k <;> decide

/-- Settles O5: event words are read back one by one, and a script is the concatenation of its tokens' events. -/
theorem scriptEncodingReadsBack : Obligations.ScriptEncodingReadsBack := by
  refine ⟨fun es => ⟨decodeEvents_encodeEvents es, length_encodeEvents es⟩,
    fun ts => ⟨decodeEvents_encodeEvents _, length_encodeScript ts⟩, encodeScript_append, fun k => ?edge,
    rfl, rfl, rfl, rfl, rfl, by decide, by decide⟩
  case edge =>
    obtain ⟨hfall, hrise⟩ := encodeScript_edge k
    exact ⟨hfall, hrise, rfl, rfl, rfl⟩

/-! ### The binding table -/

/-- Servicing through the binding table is servicing with the event's action. -/
theorem serviceByBinding_eq {p : Phase} (k : Line) (e : Edge) (hp : p ≠ .resultDisplay) :
    serviceByBinding p k e = service k e (eventAction p k e) := by
  cases e with
  | rising => cases p <;> cases k <;> rfl
  | falling =>
    cases p with
    | firstOperandInput => cases k <;> rfl
    | secondOperandInput => cases k <;> rfl
    | operationSelection => cases k <;> rfl
    | resultDisplay => exact absurd rfl hp

/-- Settles O6: both the decoded instruction and the binding table service the line with the event's action. -/
theorem decodedInstructionFollowsBindingTable : Obligations.DecodedInstructionFollowsBindingTable := by
  refine ⟨fun p k e s hp => ?_, fun p hp => ?_, rfl, rfl, rfl, rfl⟩
  · rw [exec_dispatchWord k e hp, serviceByBinding_eq k e hp]
  · rcases hp with rfl | rfl <;> exact ⟨rfl, rfl, rfl, rfl⟩

end Sys2Proof.Proofs
end

section
/-! The edits of the operand-input commands, bit by bit (42_edit_buffer.md R132 to R134), and what an event's edit keeps. -/

namespace Sys2Proof.Machine

/-! ### The cursor -/

theorem bidx_add_one_toNat {b : BitVec 7} (h : b.toNat < 64) : (b + 1).toNat = b.toNat + 1 := by
  rw [BitVec.toNat_add]
  exact Nat.mod_eq_of_lt (by simp; omega)

theorem bidx_sub_one_toNat {b : BitVec 7} (h : 0 < b.toNat) : (b - 1).toNat = b.toNat - 1 := by
  have hb := b.isLt
  simp [BitVec.toNat_sub]
  omega

/-- Writing the cursor leaves both operands. -/
theorem State.operand_with_bidx (s : State) (b : BitVec 7) (i : OperandIndex) :
    ({ s with bidx := b } : State).operand i = s.operand i :=
  State.operand_congr rfl rfl i

/-! ### APPEND0 -/

theorem State.appendZero_of_lt {s : State} (h : s.bidx.toNat < 64) : s.appendZero = { s with bidx := s.bidx + 1 } :=
  if_pos h

theorem State.appendZero_of_full {s : State} (h : ¬s.bidx.toNat < 64) : s.appendZero = s := if_neg h

@[simp] theorem State.appendZero_cur (s : State) : s.appendZero.cur = s.cur := by
  unfold State.appendZero
  split <;> rfl

@[simp] theorem State.appendZero_operand (s : State) (i : OperandIndex) : s.appendZero.operand i = s.operand i := by
  unfold State.appendZero
  split
  · exact s.operand_with_bidx _ i
  · rfl

theorem State.appendZero_bidx (s : State) :
    s.appendZero.bidx = if s.bidx.toNat < 64 then s.bidx + 1 else s.bidx := by
  unfold State.appendZero
  split <;> rfl

/-! ### APPEND1 -/

theorem State.appendOne_of_lt {s : State} (h : s.bidx.toNat < 64) :
    s.appendOne =
      { s.setOperand s.cur (s.operand s.cur ||| (1#64 <<< s.bidx.toNat)) with bidx := s.bidx + 1 } :=
  if_pos h

theorem State.appendOne_of_full {s : State} (h : ¬s.bidx.toNat < 64) : s.appendOne = s := if_neg h

@[simp] theorem State.appendOne_cur (s : State) : s.appendOne.cur = s.cur := by
  unfold State.appendOne
  split
  · exact s.setOperand_cur _ _
  · rfl

theorem State.appendOne_bidx (s : State) :
    s.appendOne.bidx = if s.bidx.toNat < 64 then s.bidx + 1 else s.bidx := by
  unfold State.appendOne
  split <;> rfl

theorem State.appendOne_operand_cur (s : State) :
    s.appendOne.operand s.cur =
      if s.bidx.toNat < 64 then s.operand s.cur ||| (1#64 <<< s.bidx.toNat) else s.operand s.cur := by
  unfold State.appendOne
  split
  · rw [State.operand_with_bidx, State.operand_setOperand_self]
  · rfl

theorem State.appendOne_operand_ne (s : State) {i : OperandIndex} (h : i ≠ s.cur) :
    s.appendOne.operand i = s.operand i := by
  unfold State.appendOne
  split
  · rw [State.operand_with_bidx, State.operand_setOperand_ne s _ h]
  · rfl

/-! ### BACKSPACE -/

theorem State.backspace_of_pos {s : State} (h : 0 < s.bidx.toNat) :
    s.backspace =
      { s.setOperand s.cur (s.operand s.cur &&& ~~~(1#64 <<< (s.bidx.toNat - 1))) with bidx := s.bidx - 1 } := by
  rw [State.backspace, if_pos h, bidx_sub_one_toNat h]

theorem State.backspace_of_empty {s : State} (h : ¬0 < s.bidx.toNat) : s.backspace = s := if_neg h

@[simp] theorem State.backspace_cur (s : State) : s.backspace.cur = s.cur := by
  unfold State.backspace
  split
  · exact s.setOperand_cur _ _
  · rfl

theorem State.backspace_bidx (s : State) :
    s.backspace.bidx = if 0 < s.bidx.toNat then s.bidx - 1 else s.bidx := by
  unfold State.backspace
  split <;> rfl

theorem State.backspace_operand_cur (s : State) :
    s.backspace.operand s.cur =
      if 0 < s.bidx.toNat then s.operand s.cur &&& ~~~(1#64 <<< (s.bidx.toNat - 1)) else s.operand s.cur := by
  split
  next h => rw [State.backspace_of_pos h, State.operand_with_bidx, State.operand_setOperand_self]
  next h => rw [State.backspace_of_empty h]

theorem State.backspace_operand_ne (s : State) {i : OperandIndex} (h : i ≠ s.cur) :
    s.backspace.operand i = s.operand i := by
  unfold State.backspace
  split
  · rw [State.operand_with_bidx, State.operand_setOperand_ne s _ h]
  · rfl

/-! ### Bits -/

/-- Setting a bit sets that bit alone. -/
theorem getLsbD_setBit (w : Word) {n : Nat} (hn : n < 64) (j : Nat) :
    (w ||| (1#64 <<< n)).getLsbD j = (w.getLsbD j || decide (j = n)) := by
  rw [BitVec.getLsbD_or, BitVec.getLsbD_shiftLeft]
  by_cases hj : j = n
  · subst hj
    simp [hn]
  · by_cases hlt : j < n
    · simp [hlt, hj]
    · have hsub : j - n ≠ 0 := by omega
      simp [hsub, hj]

/-- Clearing a bit clears that bit alone. -/
theorem getLsbD_clearBit (w : Word) {n : Nat} (hn : n < 64) (j : Nat) :
    (w &&& ~~~(1#64 <<< n)).getLsbD j = (w.getLsbD j && !decide (j = n)) := by
  have hone : (1#64 <<< n).getLsbD j = decide (j = n) := by
    simpa using getLsbD_setBit 0#64 hn j
  rw [BitVec.getLsbD_and, BitVec.getLsbD_not, hone]
  by_cases hj : j < 64
  · simp [hj]
  · simp [BitVec.getLsbD_of_ge w j (by omega)]

/-- A clean tail, bit by bit. -/
theorem State.cleanTail_iff (s : State) :
    s.cleanTail ↔ ∀ j, s.bidx.toNat ≤ j → (s.operand s.cur).getLsbD j = false := by
  unfold State.cleanTail
  constructor
  · intro h j hj
    have hbit := congrArg (fun w : Word => w.getLsbD (j - s.bidx.toNat)) h
    simpa [Nat.add_sub_cancel' hj] using hbit
  · intro h
    apply BitVec.eq_of_getLsbD_eq
    intro j _
    simpa using h (s.bidx.toNat + j) (by omega)

/-! ### Bounds and the clean tail -/

theorem State.appendZero_bidx_le {s : State} (h : s.bidx.toNat ≤ 64) : s.appendZero.bidx.toNat ≤ 64 := by
  rw [State.appendZero_bidx]
  split
  next hlt => rw [bidx_add_one_toNat hlt]; exact hlt
  next => exact h

theorem State.appendOne_bidx_le {s : State} (h : s.bidx.toNat ≤ 64) : s.appendOne.bidx.toNat ≤ 64 := by
  rw [State.appendOne_bidx]
  split
  next hlt => rw [bidx_add_one_toNat hlt]; exact hlt
  next => exact h

theorem State.backspace_bidx_le {s : State} (h : s.bidx.toNat ≤ 64) : s.backspace.bidx.toNat ≤ 64 := by
  rw [State.backspace_bidx]
  split
  next hpos => rw [bidx_sub_one_toNat hpos]; omega
  next => exact h

theorem State.appendZero_cleanTail {s : State} (h : s.cleanTail) : s.appendZero.cleanTail := by
  rw [State.cleanTail_iff] at h ⊢
  intro j hj
  rw [State.appendZero_cur, State.appendZero_operand]
  apply h
  rw [State.appendZero_bidx] at hj
  split at hj
  next hlt => rw [bidx_add_one_toNat hlt] at hj; omega
  next => exact hj

/-- The bit APPEND1 sets is below the new cursor. -/
theorem State.appendOne_cleanTail {s : State} (h : s.cleanTail) : s.appendOne.cleanTail := by
  by_cases hlt : s.bidx.toNat < 64
  · rw [State.cleanTail_iff] at h ⊢
    intro j hj
    rw [State.appendOne_bidx, if_pos hlt, bidx_add_one_toNat hlt] at hj
    have hne : j ≠ s.bidx.toNat := by omega
    have hclear : (s.operand s.cur).getLsbD j = false := h j (by omega)
    rw [State.appendOne_cur, State.appendOne_operand_cur, if_pos hlt, getLsbD_setBit _ hlt]
    simp [hclear, hne]
  · rwa [State.appendOne_of_full hlt]

/-- The bit BACKSPACE takes out of the operand is the one it clears. -/
theorem State.backspace_cleanTail {s : State} (hb : s.bidx.toNat ≤ 64) (h : s.cleanTail) : s.backspace.cleanTail := by
  by_cases hpos : 0 < s.bidx.toNat
  · rw [State.cleanTail_iff] at h ⊢
    intro j hj
    rw [State.backspace_bidx, if_pos hpos, bidx_sub_one_toNat hpos] at hj
    rw [State.backspace_cur, State.backspace_operand_cur, if_pos hpos, getLsbD_clearBit _ (by omega)]
    by_cases hj' : j = s.bidx.toNat - 1
    · simp [hj']
    · simp [h j (by omega)]
  · rwa [State.backspace_of_empty hpos]

/-! ### What an event's edit leaves unchanged -/

section
variable (p : Phase) (k : Line) (e : Edge) (s : State)

@[simp] theorem eventEdit_phase : (eventEdit p k e s).phase = s.phase := by rw [eventEdit_eq]
@[simp] theorem eventEdit_ctl : (eventEdit p k e s).ctl = s.ctl := by rw [eventEdit_eq]
@[simp] theorem eventEdit_cur : (eventEdit p k e s).cur = s.cur := by rw [eventEdit_eq]
@[simp] theorem eventEdit_result : (eventEdit p k e s).result = s.result := by rw [eventEdit_eq]
@[simp] theorem eventEdit_keep : (eventEdit p k e s).keep = s.keep := by rw [eventEdit_eq]
@[simp] theorem eventEdit_ready : (eventEdit p k e s).ready = s.ready := by rw [eventEdit_eq]
@[simp] theorem eventEdit_lamps : (eventEdit p k e s).lamps = s.lamps := by rw [eventEdit_eq]
@[simp] theorem eventEdit_q : (eventEdit p k e s).q = s.q := by rw [eventEdit_eq]
@[simp] theorem eventEdit_stop : (eventEdit p k e s).stop = s.stop := by rw [eventEdit_eq]
@[simp] theorem eventEdit_acquiredIn : (eventEdit p k e s).acquiredIn = s.acquiredIn := by rw [eventEdit_eq]
@[simp] theorem eventEdit_acquiredOut : (eventEdit p k e s).acquiredOut = s.acquiredOut := by rw [eventEdit_eq]
@[simp] theorem eventEdit_status : (eventEdit p k e s).status = s.status := by rw [eventEdit_eq]
@[simp] theorem eventEdit_trace : (eventEdit p k e s).trace = s.trace := by rw [eventEdit_eq]
@[simp] theorem eventEdit_calls : (eventEdit p k e s).calls = s.calls := by rw [eventEdit_eq]
@[simp] theorem eventEdit_arrivals : (eventEdit p k e s).arrivals = s.arrivals := by rw [eventEdit_eq]
@[simp] theorem eventEdit_draws : (eventEdit p k e s).draws = s.draws := by rw [eventEdit_eq]
@[simp] theorem eventEdit_free : (eventEdit p k e s).free = s.free := by rw [eventEdit_eq]

/-- Setting an operand does not touch what the read of an event changes. -/
theorem State.setOperand_popped (i : OperandIndex) (w : Word) :
    (s.popped k e).setOperand i w = (s.setOperand i w).popped k e := by
  cases i <;> rfl

theorem State.appendZero_popped : (s.popped k e).appendZero = s.appendZero.popped k e := by
  by_cases h : s.bidx.toNat < 64
  · rw [State.appendZero_of_lt h]
    exact State.appendZero_of_lt h
  · rw [State.appendZero_of_full h]
    exact State.appendZero_of_full h

theorem State.appendOne_popped : (s.popped k e).appendOne = s.appendOne.popped k e := by
  by_cases h : s.bidx.toNat < 64
  · rw [State.appendOne_of_lt h, State.appendOne_of_lt (s := s.popped k e) h, State.setOperand_popped]
    rfl
  · rw [State.appendOne_of_full h]
    exact State.appendOne_of_full h

theorem State.backspace_popped : (s.popped k e).backspace = s.backspace.popped k e := by
  by_cases h : 0 < s.bidx.toNat
  · rw [State.backspace_of_pos h, State.backspace_of_pos (s := s.popped k e) h, State.setOperand_popped]
    rfl
  · rw [State.backspace_of_empty h]
    exact State.backspace_of_empty h

/-- The edit and the read of the event may be taken in either order. -/
theorem eventEdit_popped : eventEdit p k e (s.popped k e) = (eventEdit p k e s).popped k e := by
  unfold eventEdit
  split
  · exact s.appendZero_popped _ _
  · exact s.appendOne_popped _ _
  · exact s.backspace_popped _ _
  · exact s.appendZero_popped _ _
  · exact s.appendOne_popped _ _
  · exact s.backspace_popped _ _
  · rfl
  · rfl

end

end Sys2Proof.Machine
end

section
/-! What a step does, said forwards: the action of each control state, a serviced event by its draws, and an encoder step. -/

namespace Sys2Proof.Machine

/-! ### The action of a control state -/

theorem action_of_entry {u : State} (hrun : u.status = .running) (hctl : u.ctl = .entry) : action u = loopHead u := by
  simp only [action, hrun, phaseAction, hctl]

theorem action_of_wait {u : State} (hrun : u.status = .running) (hctl : u.ctl = .wait)
    (hphase : u.phase ≠ .resultDisplay) : action u = .own (waitStep u) := by
  cases hp : u.phase with
  | resultDisplay => exact absurd hp hphase
  | firstOperandInput => simp only [action, hrun, phaseAction, hctl, hp]
  | secondOperandInput => simp only [action, hrun, phaseAction, hctl, hp]
  | operationSelection => simp only [action, hrun, phaseAction, hctl, hp]

/-- The control states of the encoder are those the table of R90 lists for ResultDisplay, ENTRY left out. -/
theorem action_of_encoder {u : State} (hrun : u.status = .running) (hphase : u.phase = .resultDisplay)
    (hctl : ctlOccurs .operationSelection u.ctl = false) : action u = displayAction u := by
  cases hc : u.ctl with
  | entry => rw [hc] at hctl; cases hctl
  | wait => rw [hc] at hctl; cases hctl
  | service => rw [hc] at hctl; cases hctl
  | shine1 i h => simp only [action, hrun, phaseAction, hc, hphase]
  | bit j h => simp only [action, hrun, phaseAction, hc, hphase]
  | shine2 i h => simp only [action, hrun, phaseAction, hc, hphase]

/-! ### Steps of a running block, from the state the environment leaves -/

/-- At ENTRY the step is what the loop head takes. -/
theorem step_of_entry {s : State} (hrun : s.status = .running) (hctl : s.ctl = .entry) :
    step s = perform (loopHead (deliver s)) (deliver s) := by
  rw [step, action_of_entry (by rwa [deliver_status]) (by rwa [deliver_ctl])]

theorem step_of_wait {s : State} (hrun : s.status = .running) (hctl : s.ctl = .wait) (hphase : s.phase ≠ .resultDisplay) :
    step s = .next (waitStep (deliver s)) := by
  rw [step, action_of_wait (by rwa [deliver_status]) (by rwa [deliver_ctl]) (by rwa [deliver_phase]), perform]

theorem step_of_encoder {s : State} (hrun : s.status = .running) (hphase : s.phase = .resultDisplay)
    (hctl : ctlOccurs .operationSelection s.ctl = false) : step s = .next (encoderStep (deliver s)) := by
  rw [step, action_of_encoder (by rwa [deliver_status]) (by rwa [deliver_phase]) (by rwa [deliver_ctl]),
    perform_displayAction]

theorem step_of_displayEntry {s : State} (hrun : s.status = .running) (hstop : s.stop = false)
    (hphase : s.phase = .resultDisplay) (hctl : s.ctl = .entry) : step s = .next (deliver s).displayEntered := by
  have hhead : loopHead (deliver s) = .run (decode (.alu (deliver s).op)) := by
    simp only [loopHead, deliver_stop, hstop, deliver_phase, hphase, Bool.false_eq_true, if_false]
  rw [step_of_entry hrun hctl, hhead]
  simp only [perform, exec_alu, mapNext, finish_alu]
  rfl

/-- At SERVICE the step is the servicing of the lowest line of `S`. -/
theorem step_of_service {s : State} {k : Line} {e : Edge} {es : List Edge} (hrun : s.status = .running)
    (hctl : s.ctl = .service) (hphase : s.phase ≠ .resultDisplay) (hk : s.ready.lowest = some k)
    (hq : (deliver s).q.get k = e :: es) :
    step s = service k e (eventAction s.phase k e) (deliver s) := by
  have hact : action (deliver s) = .run (decode (.dispatch (dispatchWord s.phase k e))) := by
    rw [Proofs.action_of_service (by rwa [deliver_status]) (by rwa [deliver_ctl]) (by rwa [deliver_phase])]
    simp only [serviceAction, deliver_ready, hk, hq, deliver_phase]
  rw [step, hact, perform, exec_dispatchWord k e hphase]
  obtain ⟨t, ht⟩ := service_next k e (eventAction s.phase k e) (deliver s)
  rw [ht, mapNext, finish_dispatchWord k e hphase]

/-! ### A serviced event, by its draws -/

/-- The two states have the same operands, cursor and operation: what the edits of events write. -/
structure SameRegisters (t s : State) : Prop where
  operand0 : t.operand0 = s.operand0
  operand1 : t.operand1 = s.operand1
  cur : t.cur = s.cur
  bidx : t.bidx = s.bidx
  op : t.op = s.op

theorem SameRegisters.refl (s : State) : SameRegisters s s := ⟨rfl, rfl, rfl, rfl, rfl⟩

theorem SameRegisters.trans {s t u : State} (h : SameRegisters t s) (h' : SameRegisters u t) : SameRegisters u s :=
  ⟨h'.operand0.trans h.operand0, h'.operand1.trans h.operand1, h'.cur.trans h.cur, h'.bidx.trans h.bidx,
    h'.op.trans h.op⟩

theorem SameRegisters.operand {t s : State} (h : SameRegisters t s) (i : OperandIndex) : t.operand i = s.operand i :=
  State.operand_congr h.operand0 h.operand1 i

section
variable {p : Phase} {k : Line} {e : Edge} {s : State}

theorem service_event_of_no_render (hp : p ≠ .resultDisplay) (hr : eventRenders p k e = false) (h : s.succeeding 1) :
    service k e (eventAction p k e) s = .next { s with
      keep := s.keep && eventReturns k e
      ready := s.ready.erase k
      q := s.q.set k (s.q.get k).tail
      trace := s.trace ++ [.consume k e]
      draws := s.draws.drop 1 } := by
  have hact := eventAction_eq k e hp (s.popped k e)
  rw [hr] at hact
  exact service_of_ongoing h hact

theorem eventLamps_popped (p : Phase) (k : Line) (e : Edge) (s : State) : eventLamps p (s.popped k e) = eventLamps p s := by
  cases p <;> rfl

theorem service_event_of_render (hp : p ≠ .resultDisplay) (hr : eventRenders p k e = true) (h : s.succeeding 2) :
    service k e (eventAction p k e) s = .next { eventEdit p k e s with
      lamps := eventLamps p (eventEdit p k e s)
      ready := s.ready.erase k
      q := s.q.set k (s.q.get k).tail
      trace := s.trace ++ [.consume k e, .lamps (eventLamps p (eventEdit p k e s))]
      draws := s.draws.drop 2 } := by
  have hdraw : (eventEdit p k e (s.popped k e)).succeeding 1 :=
    h.next (by rw [eventEdit_draws]; rfl)
  have hact := eventAction_eq k e hp (s.popped k e)
  rw [hr, if_pos rfl, invoke_render_of_succeeding (v := eventLamps p) hdraw] at hact
  rw [service_of_ongoing (h.mono (by omega)) hact]
  rw [eventEdit_popped, eventLamps_popped]
  simp [State.popped, State.mergeKeep, State.serviced]

/-- A failing render keeps the read and the edit before it (60_exceptions.md R201, D29). -/
theorem service_event_of_render_fails (hp : p ≠ .resultDisplay) (hr : eventRenders p k e = true) {ds : List Bool}
    (h : s.draws = false :: true :: ds) :
    service k e (eventAction p k e) s = .next (({ eventEdit p k e s with
      q := s.q.set k (s.q.get k).tail
      trace := s.trace ++ [.consume k e]
      draws := ds } : State).raiseFatal .io) := by
  have hread : s.succeeding 1 := by simp [State.succeeding, h]
  have hdraw : (eventEdit p k e (s.popped k e)).draws = true :: ds := by
    rw [eventEdit_draws]
    simp [State.popped, h]
  have hact := eventAction_eq k e hp (s.popped k e)
  rw [hr, if_pos rfl, invoke_render_of_fails (v := eventLamps p) hdraw] at hact
  rw [service_of_halted hread hact]
  rw [eventEdit_popped]
  simp [State.popped]

/-- On every path, the operands, the cursor and the operation are as they were, or as the edit leaves them. -/
theorem event_registers {t : State} (hp : p ≠ .resultDisplay) (h : service k e (eventAction p k e) s = .next t) :
    SameRegisters t s ∨ SameRegisters t (eventEdit p k e s) := by
  rcases event_spec hp h with ⟨ds, -, rfl⟩ | ⟨-, -, rfl⟩ | ⟨-, -, ds, -, rfl⟩ | ⟨-, -, rfl⟩
  · exact .inl ⟨rfl, rfl, rfl, rfl, rfl⟩
  · exact .inl ⟨rfl, rfl, rfl, rfl, rfl⟩
  · rw [eventEdit_popped]
    exact .inr ⟨rfl, rfl, rfl, rfl, rfl⟩
  · rw [eventEdit_popped]
    exact .inr ⟨rfl, rfl, rfl, rfl, rfl⟩

/-- With no primitive failing, a rendering event leaves the registers its edit leaves. -/
theorem service_event_of_neverFailing (hp : p ≠ .resultDisplay) (hr : eventRenders p k e = true) (h : s.neverFailing) :
    ∃ t, service k e (eventAction p k e) s = .next t ∧ t.neverFailing ∧ SameRegisters t (eventEdit p k e s) :=
  ⟨_, service_event_of_render hp hr (h.succeeding 2), h.of_drop rfl, rfl, rfl, rfl, rfl, rfl⟩

end

/-! ### Encoder steps -/

/-- What the lamp write and the pause of an encoder step leave. -/
def State.pulsed (s : State) (v : LampVec) (d : Duration) : State :=
  { s with lamps := v, trace := s.trace ++ [.lamps v, .pause d], draws := s.draws.drop 1 }

/-- An encoder pulse halts at its lamp write, or goes on after its pause. -/
theorem pulse_spec (v : LampVec) (d : Duration) (after : State → State) (s : State) :
    (∃ ds, s.draws = true :: ds ∧ pulse v d after s = ({ s with draws := ds } : State).raiseFatal .io) ∨
    (s.succeeding 1 ∧ pulse v d after s = after (s.pulsed v d)) := by
  rcases s.succeeding_or_fails with h | ⟨ds, h⟩
  · exact .inr ⟨h, pulse_of_succeeding v d after h⟩
  · exact .inl ⟨ds, h, pulse_of_fails v d after h⟩

section
variable {s : State}

theorem encoderStep_shine1_on {i : Fin 12} (h : s.ctl = .shine1 i .on) :
    encoderStep s = pulse lampsOn .shineOn (·.goto (.shine1 i .off)) s := by
  simp only [encoderStep, h]

theorem encoderStep_shine1_off {i : Fin 12} (h : s.ctl = .shine1 i .off) :
    encoderStep s = pulse lampsOff .shineOff (·.goto (afterShine1 i)) s := by
  simp only [encoderStep, h]

theorem encoderStep_bit_hold {j : Fin 64} (h : s.ctl = .bit j .hold) :
    encoderStep s = pulse (bitPattern (s.result.getLsbD j.val)) .bit (·.goto (.bit j .gap)) s := by
  simp only [encoderStep, h]

theorem encoderStep_bit_gap {j : Fin 64} (h : s.ctl = .bit j .gap) :
    encoderStep s = pulse lampsOff .gap (·.goto (afterBit j)) s := by
  simp only [encoderStep, h]

theorem encoderStep_shine2_on {i : Fin 12} (h : s.ctl = .shine2 i .on) :
    encoderStep s = pulse lampsOn .shineOn (·.goto (.shine2 i .off)) s := by
  simp only [encoderStep, h]

theorem encoderStep_shine2_off {i : Fin 12} (h : s.ctl = .shine2 i .off) :
    encoderStep s = pulse lampsOff .shineOff (finishShine2 i) s := by
  simp only [encoderStep, h]

end

theorem ctlOccurs_afterShine1 (i : Fin 12) : ctlOccurs .operationSelection (afterShine1 i) = false := by
  unfold afterShine1
  split <;> rfl

theorem ctlOccurs_afterBit (j : Fin 64) : ctlOccurs .operationSelection (afterBit j) = false := by
  unfold afterBit
  split <;> rfl

/-- The control states of the encoder are those of ResultDisplay. -/
theorem ctlOccurs_display_of_encoder {c : Ctl} (h : ctlOccurs .operationSelection c = false) :
    ctlOccurs .resultDisplay c = true := by
  cases c with
  | entry => rfl
  | wait => cases h
  | service => cases h
  | shine1 i half => rfl
  | bit j half => rfl
  | shine2 i half => rfl

/-- All an encoder step can do: its lamp write fails; it goes on to another control state of the encoder; or, at the end of
the second flourish, the phase handler returns. -/
inductive EncoderCase (s : State) : State → Prop where
  | halts (ds : List Bool) (h : s.draws = true :: ds) : EncoderCase s (({ s with draws := ds } : State).raiseFatal .io)
  | goes (v : LampVec) (d : Duration) (c : Ctl) (hc : ctlOccurs .operationSelection c = false) :
      EncoderCase s ((s.pulsed v d).goto c)
  | returns (v : LampVec) (d : Duration) (h : s.ctl = .shine2 11 .off) : EncoderCase s (s.pulsed v d).exitPhase

theorem EncoderCase.of_goto (s : State) (v : LampVec) (d : Duration) {c : Ctl}
    (hc : ctlOccurs .operationSelection c = false) : EncoderCase s (pulse v d (·.goto c) s) := by
  rcases pulse_spec v d (·.goto c) s with ⟨ds, h, he⟩ | ⟨-, he⟩
  · exact he ▸ .halts ds h
  · exact he ▸ .goes v d c hc

/-- The last cycle of the second flourish is cycle 11; the others lead to the next cycle. -/
theorem EncoderCase.of_finishShine2 {s : State} {i : Fin 12} (h : s.ctl = .shine2 i .off) :
    EncoderCase s (pulse lampsOff .shineOff (finishShine2 i) s) := by
  rcases pulse_spec lampsOff .shineOff (finishShine2 i) s with ⟨ds, hd, he⟩ | ⟨-, he⟩
  · exact he ▸ .halts ds hd
  · rw [he, finishShine2]
    split
    next hi => exact .goes _ _ _ rfl
    next hi =>
      have hlast : i = 11 := by omega
      exact .returns _ _ (hlast ▸ h)

theorem encoderStep_cases {s : State} (h : ctlOccurs .operationSelection s.ctl = false) :
    EncoderCase s (encoderStep s) := by
  cases hc : s.ctl with
  | entry => rw [hc] at h; cases h
  | wait => rw [hc] at h; cases h
  | service => rw [hc] at h; cases h
  | shine1 i half =>
    cases half with
    | on => rw [encoderStep_shine1_on hc]; exact .of_goto s _ _ rfl
    | off => rw [encoderStep_shine1_off hc]; exact .of_goto s _ _ (ctlOccurs_afterShine1 i)
  | bit j half =>
    cases half with
    | hold => rw [encoderStep_bit_hold hc]; exact .of_goto s _ _ rfl
    | gap => rw [encoderStep_bit_gap hc]; exact .of_goto s _ _ (ctlOccurs_afterBit j)
  | shine2 i half =>
    cases half with
    | on => rw [encoderStep_shine2_on hc]; exact .of_goto s _ _ rfl
    | off => rw [encoderStep_shine2_off hc]; exact .of_finishShine2 hc

/-! ### Waiting and phase starts -/

theorem waitStep_of_empty {u : State} (h : u.queuesEmpty = true) : waitStep u = u := if_pos h

/-- A wake halts at its sampling, or goes on to SERVICE with a snapshot of the pending lines. -/
theorem waitStep_of_succeeding {u : State} (h : u.queuesEmpty = false) (hs : u.succeeding 1) :
    waitStep u = { u with ctl := .service, ready := u.q.pending, draws := u.draws.drop 1 } := by
  rw [waitStep, if_neg (by simp [h]), sampleReady_of_succeeding hs]
  rfl

theorem waitStep_of_fails {u : State} (h : u.queuesEmpty = false) {ds : List Bool} (hd : u.draws = true :: ds) :
    waitStep u = ({ u with draws := ds } : State).raiseFatal .io := by
  rw [waitStep, if_neg (by simp [h]), sampleReady_of_fails hd]
  rfl

/-- The queues are empty together exactly when each is. -/
theorem queuesEmpty_iff (u : State) : u.queuesEmpty = true ↔ ∀ k, u.q.get k = [] := by
  rw [State.queuesEmpty, Option.isNone_iff_eq_none, Lanes.lowest_eq_none_iff]
  constructor
  · intro h k
    by_contra hne
    have hk := (Lanes.get_pending_iff u.q k).2 hne
    rw [h, Lanes.get_all] at hk
    cases hk
  · intro h
    apply Lanes.ext_get
    intro k
    rw [Lanes.get_all, Bool.eq_false_iff, Ne, Lanes.get_pending_iff, h k]
    simp

end Sys2Proof.Machine
end

section
/-! The invariant (10_state.md section 6): arrivals, the fatal path and every step keep it. -/

namespace Sys2Proof.Machine

/-! ### The part of the invariant that a halt keeps -/

/-- The clauses of `StateInv` that do not ask whether the block runs: the fatal path keeps them, whatever abandoned the
step. -/
structure RegInv (s : State) : Prop where
  control : ctlOccurs s.phase s.ctl = true
  cursor : s.bidx.toNat ≤ 64
  tail : s.editing → s.cleanTail
  current : s.editing → s.cur = operandOf s.phase
  noStop : s.stop = false
  polling : s.ctl = .wait → s.keep = true

theorem StateInv.regs {s : State} (h : StateInv s) : RegInv s :=
  ⟨h.control, h.cursor, h.tail, h.current, h.noStop, h.polling⟩

theorem RegInv.with_draws {s : State} (h : RegInv s) (ds : List Bool) : RegInv { s with draws := ds } :=
  ⟨h.control, h.cursor, h.tail, h.current, h.noStop, h.polling⟩

/-- The fatal path releases the lines and leaves the registers. -/
theorem RegInv.raiseFatal {s : State} (h : RegInv s) (r : FatalReason) : StateInv (s.raiseFatal r) where
  control := h.control
  cursor := h.cursor
  tail := h.tail
  current := h.current
  noStop := h.noStop
  polling := h.polling
  queued hrun := nomatch hrun
  held hrun := nomatch hrun
  released _ := ⟨rfl, rfl⟩
  shownOperand hrun := nomatch hrun
  shownOp hrun := nomatch hrun

theorem eventEdit_bidx_le (p : Phase) (k : Line) (e : Edge) {s : State} (h : s.bidx.toNat ≤ 64) :
    (eventEdit p k e s).bidx.toNat ≤ 64 := by
  unfold eventEdit
  split
  · exact State.appendZero_bidx_le h
  · exact State.appendOne_bidx_le h
  · exact State.backspace_bidx_le h
  · exact State.appendZero_bidx_le h
  · exact State.appendOne_bidx_le h
  · exact State.backspace_bidx_le h
  · exact h
  · exact h

theorem eventEdit_cleanTail (p : Phase) (k : Line) (e : Edge) {s : State} (hb : s.bidx.toNat ≤ 64) (h : s.cleanTail) :
    (eventEdit p k e s).cleanTail := by
  unfold eventEdit
  split
  · exact State.appendZero_cleanTail h
  · exact State.appendOne_cleanTail h
  · exact State.backspace_cleanTail hb h
  · exact State.appendZero_cleanTail h
  · exact State.appendOne_cleanTail h
  · exact State.backspace_cleanTail hb h
  · exact h
  · exact h

theorem eventEdit_editing {p : Phase} {k : Line} {e : Edge} {s : State} : (eventEdit p k e s).editing ↔ s.editing := by
  simp only [State.editing, eventEdit_phase, eventEdit_ctl]

theorem RegInv.eventEdit {s : State} (h : RegInv s) (p : Phase) (k : Line) (e : Edge) : RegInv (eventEdit p k e s) where
  control := by simpa using h.control
  cursor := eventEdit_bidx_le p k e h.cursor
  tail hed := eventEdit_cleanTail p k e h.cursor (h.tail (eventEdit_editing.1 hed))
  current hed := by simpa using h.current (eventEdit_editing.1 hed)
  noStop := by simpa using h.noStop
  polling := by simpa using h.polling

/-! ### Arrivals -/

/-- Queues that keep their pending lines keep the invariant. -/
theorem StateInv.with_queues {s : State} (h : StateInv s) (q : Lanes (List Edge)) (arr : List (List Arrival))
    (hq : ∀ k, s.q.get k ≠ [] → q.get k ≠ []) : StateInv { s with q := q, arrivals := arr } where
  control := h.control
  cursor := h.cursor
  tail := h.tail
  current := h.current
  noStop := h.noStop
  polling := h.polling
  queued hrun hctl k hk := hq k (h.queued hrun hctl k hk)
  held := h.held
  released := h.released
  shownOperand := h.shownOperand
  shownOp := h.shownOp

theorem StateInv.append {s : State} (h : StateInv s) (a : Arrival) : StateInv (s.append a) := by
  refine h.with_queues _ s.arrivals fun k hk => ?_
  by_cases hka : k = a.line
  · subst hka
    simp
  · rwa [Lanes.get_set_ne _ _ hka]

theorem StateInv.offer {s : State} (h : StateInv s) (a : Arrival) : StateInv (s.offer a) := by
  unfold State.offer
  split
  · exact h.append a
  · exact h

theorem StateInv.deliver {s : State} (h : StateInv s) : StateInv (deliver s) := by
  rw [deliver_eq]
  refine h.with_queues _ _ fun k hk => ?_
  obtain ⟨es, hes⟩ := deliver_get s k
  rw [hes]
  exact fun hnil => hk (List.append_eq_nil_iff.1 hnil).1

/-! ### Serviced events -/

/-- A servicing that goes on keeps the invariant when its action keeps the registers and the lamps show them: the line it
empties by one event has left `S`. -/
theorem StateInv.of_serviced {u t : State} (h : StateInv u) (k : Line) (hregs : RegInv t)
    (hq : t.q = u.q.set k (u.q.get k).tail) (hready : t.ready = u.ready.erase k) (hctl : t.ctl = u.ctl)
    (hstatus : t.status = u.status) (hin : t.acquiredIn = u.acquiredIn) (hout : t.acquiredOut = u.acquiredOut)
    (hoperand : t.status = .running → t.editing → t.lamps = t.operandLamps)
    (hop : t.status = .running → t.selecting → t.lamps = opLamps t.op) : StateInv t where
  control := hregs.control
  cursor := hregs.cursor
  tail := hregs.tail
  current := hregs.current
  noStop := hregs.noStop
  polling := hregs.polling
  queued hrun hserv j hj := by
    rw [hready] at hj
    obtain ⟨hne, hj⟩ := Lanes.get_of_get_erase hj
    rw [hq, Lanes.get_set_ne _ _ hne]
    exact h.queued (hstatus ▸ hrun) (hctl ▸ hserv) j hj
  held hrun := by rw [hin, hout]; exact h.held (hstatus ▸ hrun)
  released hrun := by rw [hin, hout]; exact h.released (hstatus ▸ hrun)
  shownOperand := hoperand
  shownOp := hop

theorem eventLamps_of_operand {p : Phase} (hp : p.isOperand = true) (s : State) : eventLamps p s = s.operandLamps := by
  cases p with
  | firstOperandInput => rfl
  | secondOperandInput => rfl
  | operationSelection => cases hp
  | resultDisplay => cases hp

theorem RegInv.popped {u : State} (h : RegInv u) (k : Line) (e : Edge) : RegInv (u.popped k e) :=
  ⟨h.control, h.cursor, h.tail, h.current, h.noStop, h.polling⟩

/-- Every outcome of a serviced event keeps the invariant. -/
theorem StateInv.event {u t : State} (h : StateInv u) {k : Line} {e : Edge} (hp : u.phase ≠ .resultDisplay)
    (hctl : u.ctl = .service) (ht : service k e (eventAction u.phase k e) u = .next t) : StateInv t := by
  have hedit : RegInv (eventEdit u.phase k e (u.popped k e)) := (h.regs.popped k e).eventEdit _ _ _
  rcases event_spec hp ht with ⟨ds, -, rfl⟩ | ⟨-, -, rfl⟩ | ⟨-, -, ds, -, rfl⟩ | ⟨-, -, rfl⟩
  case inl => exact (h.regs.with_draws ds).raiseFatal .io
  case inr.inl =>
    have hregs := h.regs
    exact h.of_serviced k
      ⟨hregs.control, hregs.cursor, hregs.tail, hregs.current, hregs.noStop,
        fun hw => by simp [State.popped, hctl] at hw⟩
      rfl rfl rfl rfl rfl rfl h.shownOperand h.shownOp
  case inr.inr.inl => exact (hedit.with_draws ds).raiseFatal .io
  case inr.inr.inr =>
    refine h.of_serviced k
      ⟨hedit.control, hedit.cursor, hedit.tail, hedit.current, hedit.noStop, hedit.polling⟩
      (by simp [State.popped]) rfl (by simp [State.popped]) (by simp [State.popped]) (by simp [State.popped])
      (by simp [State.popped]) (fun _ hed => ?_) (fun _ hsel => ?_)
    · have hop : u.phase.isOperand = true := by simpa [State.popped] using hed.1
      exact eventLamps_of_operand hop _
    · have hop : u.phase = .operationSelection := by simpa [State.popped] using hsel.1
      simp only [hop, eventLamps]

/-! ### Phase entries -/

/-- The entry of a dispatcher's phase keeps the invariant when what it resets agrees with dark lamps. -/
theorem RegInv.startPhase {v : State} (h : RegInv v) (hp : v.phase ≠ .resultDisplay) (hrun : v.status = .running)
    (hheld : v.acquiredIn = Lanes.all true ∧ v.acquiredOut = Lanes.all true)
    (hoperand : v.phase.isOperand = true → v.cleanTail ∧ v.cur = operandOf v.phase ∧ v.operandLamps = lampsOff)
    (hop : v.phase = .operationSelection → opLamps v.op = lampsOff) : StateInv (startPhase v) := by
  rcases v.succeeding_or_fails with hs | ⟨ds, hd⟩
  · rw [startPhase_of_succeeding hs]
    exact {
      control := by simp [ctlOccurs, hp]
      cursor := h.cursor
      tail := fun hed => (hoperand hed.1).1
      current := fun hed => (hoperand hed.1).2.1
      noStop := h.noStop
      polling := fun _ => rfl
      queued := fun _ hctl => nomatch hctl
      held := fun _ => hheld
      released := fun hne => absurd hrun hne
      shownOperand := fun _ hed => (hoperand hed.1).2.2.symm
      shownOp := fun _ hsel => (hop hsel.1).symm }
  · rw [startPhase_of_fails hd]
    exact (h.with_draws ds).raiseFatal .io

/-- Dark lamps are the window of a zero operand with the cursor at 0. -/
theorem nibble_window_zero : nibble (windowValue 0 0) = lampsOff := by decide

theorem opLamps_zero : opLamps 0 = lampsOff := by decide

section
variable {u : State} (h : StateInv u) (hrun : u.status = .running) (hctl : u.ctl = .entry)
include h hrun hctl

theorem StateInv.enterFirst (hp : u.phase = .firstOperandInput) : StateInv (enterFirst u) := by
  refine RegInv.startPhase
    ⟨h.control, Nat.zero_le _, fun hed => absurd hctl hed.2, fun hed => absurd hctl hed.2, h.noStop, h.polling⟩
    (by simp [hp]) hrun (h.held hrun) (fun _ => ⟨rfl, ?_, nibble_window_zero⟩) fun hsel => ?_
  · simp [hp, operandOf]
  · simp [hp] at hsel

theorem StateInv.enterSecond (hp : u.phase = .secondOperandInput) : StateInv (enterSecond u) := by
  refine RegInv.startPhase
    ⟨h.control, Nat.zero_le _, fun hed => absurd hctl hed.2, fun hed => absurd hctl hed.2, h.noStop, h.polling⟩
    (by simp [hp]) hrun (h.held hrun) (fun _ => ⟨rfl, ?_, nibble_window_zero⟩) fun hsel => ?_
  · simp [hp, operandOf]
  · simp [hp] at hsel

end

theorem StateInv.enterSelection {u : State} (h : StateInv u) (hrun : u.status = .running)
    (hp : u.phase = .operationSelection) : StateInv (enterSelection u) := by
  refine RegInv.startPhase
    ⟨h.control, h.cursor, h.tail, h.current, h.noStop, h.polling⟩
    (by simp [hp]) hrun (h.held hrun) (fun hed => ?_) fun _ => opLamps_zero
  simp [hp, Phase.isOperand] at hed

/-! ### ResultDisplay -/

/-- In ResultDisplay no clause about the operands or the operation being entered applies, so any values of
its own will do. -/
theorem StateInv.of_display {u t : State} (h : StateInv u) (hp : t.phase = .resultDisplay) (hstop : t.stop = u.stop)
    (hctl : ctlOccurs .operationSelection t.ctl = false) (hcur : t.bidx = u.bidx) (hstatus : t.status = u.status)
    (hin : t.acquiredIn = u.acquiredIn) (hout : t.acquiredOut = u.acquiredOut) : StateInv t := by
  have hned : ¬t.editing := fun hed => by simp [State.editing, hp, Phase.isOperand] at hed
  have hnsel : ¬t.selecting := fun hsel => by simp [State.selecting, hp] at hsel
  have hnw : t.ctl ≠ .wait := fun hc => by rw [hc] at hctl; cases hctl
  have hns : t.ctl ≠ .service := fun hc => by rw [hc] at hctl; cases hctl
  exact {
    control := hp ▸ ctlOccurs_display_of_encoder hctl
    cursor := hcur ▸ h.cursor
    tail := fun hed => absurd hed hned
    current := fun hed => absurd hed hned
    noStop := hstop ▸ h.noStop
    polling := fun hc => absurd hc hnw
    queued := fun _ hc => absurd hc hns
    held := fun hrun => by rw [hin, hout]; exact h.held (hstatus ▸ hrun)
    released := fun hrun => by rw [hin, hout]; exact h.released (hstatus ▸ hrun)
    shownOperand := fun _ hed => absurd hed hned
    shownOp := fun _ hsel => absurd hsel hnsel }

/-- Leaving a phase keeps the invariant: at ENTRY it asks nothing of the registers of the next. -/
theorem StateInv.exitPhase {u : State} (h : StateInv u) : StateInv u.exitPhase where
  control := rfl
  cursor := h.cursor
  tail hed := absurd rfl hed.2
  current hed := absurd rfl hed.2
  noStop := h.noStop
  polling hc := nomatch hc
  queued _ hc := nomatch hc
  held := h.held
  released := h.released
  shownOperand _ hed := absurd rfl hed.2
  shownOp _ hsel := absurd rfl hsel.2

theorem StateInv.displayEntered {u : State} (h : StateInv u) (hp : u.phase = .resultDisplay) :
    StateInv u.displayEntered :=
  h.of_display hp rfl rfl rfl rfl rfl rfl

theorem StateInv.pulsed {u : State} (h : StateInv u) (hp : u.phase = .resultDisplay)
    (hctl : ctlOccurs .operationSelection u.ctl = false) (v : LampVec) (d : Duration) : StateInv (u.pulsed v d) :=
  h.of_display hp rfl hctl rfl rfl rfl rfl

theorem StateInv.encoderCase {u t : State} (h : StateInv u) (hp : u.phase = .resultDisplay)
    (hctl : ctlOccurs .operationSelection u.ctl = false) (ht : EncoderCase u t) : StateInv t := by
  cases ht with
  | halts ds hd => exact (h.regs.with_draws ds).raiseFatal .io
  | goes v d c hc => exact h.of_display hp rfl hc rfl rfl rfl rfl
  | returns v d hlast => exact (h.pulsed hp hctl v d).exitPhase

/-! ### Wait, wake and the end of a wake cycle -/

theorem StateInv.waitStep {u : State} (h : StateInv u) (hctl : u.ctl = .wait) (hp : u.phase ≠ .resultDisplay) :
    StateInv (waitStep u) := by
  have hne : u.ctl ≠ .entry := by simp [hctl]
  cases he : u.queuesEmpty with
  | true => rwa [waitStep_of_empty he]
  | false =>
    rcases u.succeeding_or_fails with hs | ⟨ds, hd⟩
    · rw [waitStep_of_succeeding he hs]
      exact {
        control := by simp [ctlOccurs, hp]
        cursor := h.cursor
        tail := fun hed => h.tail ⟨hed.1, hne⟩
        current := fun hed => h.current ⟨hed.1, hne⟩
        noStop := h.noStop
        polling := fun hc => nomatch hc
        queued := fun _ _ k hk => (Lanes.get_pending_iff u.q k).1 hk
        held := h.held
        released := h.released
        shownOperand := fun hrun hed => h.shownOperand hrun ⟨hed.1, hne⟩
        shownOp := fun hrun hsel => h.shownOp hrun ⟨hsel.1, hne⟩ }
    · rw [waitStep_of_fails he hd]
      exact (h.regs.with_draws ds).raiseFatal .io

theorem StateInv.endCycle {u : State} (h : StateInv u) (hctl : u.ctl = .service) (hp : u.phase ≠ .resultDisplay) :
    StateInv (endCycle u) := by
  have hne : u.ctl ≠ .entry := by simp [hctl]
  cases hk : u.keep with
  | true =>
    rw [Proofs.endCycle_of_keep hk]
    exact {
      control := by simp [ctlOccurs, hp]
      cursor := h.cursor
      tail := fun hed => h.tail ⟨hed.1, hne⟩
      current := fun hed => h.current ⟨hed.1, hne⟩
      noStop := h.noStop
      polling := fun _ => hk
      queued := fun _ hc => nomatch hc
      held := h.held
      released := h.released
      shownOperand := fun hrun hed => h.shownOperand hrun ⟨hed.1, hne⟩
      shownOp := fun hrun hsel => h.shownOp hrun ⟨hsel.1, hne⟩ }
  | false =>
    rw [Proofs.endCycle_of_not_keep hk]
    exact h.exitPhase

end Sys2Proof.Machine

namespace Sys2Proof.Proofs

open Sys2Proof.Machine

/-- Settles O58, along the cases of a step. -/
theorem everyStepKeepsInvariant : Obligations.EveryStepKeepsInvariant := by
  intro s t hinv hstep
  obtain ⟨hrun, hcase⟩ := step_cases hstep
  have h : StateInv (deliver s) := hinv.deliver
  have hrun : (deliver s).status = .running := by rwa [deliver_status]
  cases hcase with
  | graceful hctl hstop => rw [h.noStop] at hstop; cases hstop
  | first hctl _ hp => exact h.enterFirst hrun hctl hp
  | second hctl _ hp => exact h.enterSecond hrun hctl hp
  | selection _ _ hp => exact h.enterSelection hrun hp
  | display _ _ hp => exact h.displayEntered hp
  | wait hctl hp => exact h.waitStep hctl hp
  | cycleEnd hctl hp _ => exact h.endCycle hctl hp
  | event hctl hp k e es _ _ ht => exact h.event hp hctl ht
  | encoder hctl hp => exact h.encoderCase hp hctl (encoderStep_cases hctl)

/-- Settles O57: after setup the block is at ENTRY, holds its lines and has no stop. -/
theorem resetMeetsInvariant : Obligations.ResetMeetsInvariant where
  control := rfl
  cursor := Nat.zero_le _
  tail _ := rfl
  current _ := rfl
  noStop := rfl
  polling _ := rfl
  queued _ hc := nomatch hc
  held _ := ⟨rfl, rfl⟩
  released hne := absurd rfl hne
  shownOperand _ hed := absurd rfl hed.2
  shownOp _ hsel := absurd rfl hsel.2

/-- Settles O42: an append keeps every pending line pending, and a batch goes behind what its queues hold. -/
theorem arrivalsKeepLineOrder : Obligations.ArrivalsKeepLineOrder := by
  refine ⟨fun s a h => ⟨h.append a, h.offer a⟩, fun s batch rest harr => ⟨fun k => ?queue, ?frame⟩⟩
  case queue =>
    rw [deliver, harr]
    exact State.appendAll_get batch _ k
  case frame =>
    have h := deliver_eq s
    rwa [harr] at h

/-- Every instruction has a next state. -/
theorem exec_next (i : Instr) (s : State) : ∃ t, exec i s = .next t := by
  cases i <;> exact ⟨_, rfl⟩

theorem perform_run_next (i : Instr) (s : State) : ∃ t, perform (.run i) s = .next t := by
  obtain ⟨t, ht⟩ := exec_next i s
  exact ⟨finish i t, by rw [perform, ht, mapNext]⟩

theorem perform_loopHead_next (u : State) : ∃ t, perform (loopHead u) u = .next t := by
  unfold loopHead
  split
  · exact ⟨_, rfl⟩
  · split
    · exact ⟨_, rfl⟩
    · exact ⟨_, rfl⟩
    · exact ⟨_, rfl⟩
    · exact perform_run_next _ u

/-- A line of `S` has its event, so servicing finds one. -/
theorem perform_serviceAction_next {u : State} (hq : ∀ k, u.ready.get k = true → u.q.get k ≠ []) :
    ∃ t, perform (serviceAction u) u = .next t := by
  unfold serviceAction
  split
  · exact ⟨_, rfl⟩
  next k hk =>
    split
    next hnil => exact absurd hnil (hq k (Lanes.lowest_spec hk).1)
    next => exact perform_run_next _ u

/-- Settles O59: the invariant rules out the pairs of phase and control state without a rule, and an empty queue of a line
still to be serviced. -/
theorem runningBlockAlwaysSteps : Obligations.RunningBlockAlwaysSteps := by
  intro s hinv hrun
  have h : StateInv (deliver s) := hinv.deliver
  rw [step]
  have hrun : (deliver s).status = .running := by rwa [deliver_status]
  generalize deliver s = u at h hrun
  have hcontrol := h.control
  cases hc : u.ctl with
  | entry =>
    rw [action_of_entry hrun hc]
    exact perform_loopHead_next u
  | wait =>
    rw [action_of_wait hrun hc (by simpa [hc, ctlOccurs] using hcontrol)]
    exact ⟨_, rfl⟩
  | service =>
    rw [action_of_service hrun hc (by simpa [hc, ctlOccurs] using hcontrol)]
    exact perform_serviceAction_next (h.queued hrun hc)
  | shine1 i half =>
    rw [action_of_encoder hrun (by simpa [hc, ctlOccurs] using hcontrol) (by rw [hc]; rfl), perform_displayAction]
    exact ⟨_, rfl⟩
  | bit j half =>
    rw [action_of_encoder hrun (by simpa [hc, ctlOccurs] using hcontrol) (by rw [hc]; rfl), perform_displayAction]
    exact ⟨_, rfl⟩
  | shine2 i half =>
    rw [action_of_encoder hrun (by simpa [hc, ctlOccurs] using hcontrol) (by rw [hc]; rfl), perform_displayAction]
    exact ⟨_, rfl⟩

end Sys2Proof.Proofs
end

section
/-! The dispatch instructions: encodings, effects, frames and faults (42_edit_buffer.md section 1, 43_op_selector.md
section 1). -/

namespace Sys2Proof.Proofs

open Sys2Proof.Machine

/-! ### Encodings -/

/-- A dispatch word matches a row of the table exactly when it decodes to an instruction of that row. -/
theorem matches_iff_decode_row :
    ∀ r ∈ opcodeTable.filter (fun r => r.format == .dispatch), ∀ d : BitVec 5,
      d &&& BitVec.ofNat 5 r.mask = BitVec.ofNat 5 r.pattern ↔ (decode (.dispatch d)).row = r := by
  decide

section
variable (i : Instr)

theorem row_eq_confirm_iff : i.row = ⟨"CONFIRM", .dispatch, 0x01, 0x17⟩ ↔ ∃ p, i = .confirm p := by
  cases i <;> simp [Instr.row]

theorem row_eq_append0_iff : i.row = ⟨"APPEND0", .dispatch, 0x03, 0x17⟩ ↔ ∃ p, i = .append0 p := by
  cases i <;> simp [Instr.row]

theorem row_eq_append1_iff : i.row = ⟨"APPEND1", .dispatch, 0x05, 0x17⟩ ↔ ∃ p, i = .append1 p := by
  cases i <;> simp [Instr.row]

theorem row_eq_backspace_iff : i.row = ⟨"BACKSPACE", .dispatch, 0x07, 0x17⟩ ↔ ∃ p, i = .backspace p := by
  cases i <;> simp [Instr.row]

theorem row_eq_releaseOpi_iff : i.row = ⟨"RELEASE_OPI", .dispatch, 0x00, 0x11⟩ ↔ ∃ p k, i = .releaseOpi p k := by
  cases i <;> simp [Instr.row]

theorem row_eq_confirmOp_iff : i.row = ⟨"CONFIRM_OP", .dispatch, 0x11, 0x1F⟩ ↔ i = .confirmOp := by
  cases i <;> simp [Instr.row]

theorem row_eq_cycle_iff : i.row = ⟨"CYCLE", .dispatch, 0x13, 0x1F⟩ ↔ i = .cycle := by
  cases i <;> simp [Instr.row]

theorem row_eq_unbound_iff : i.row = ⟨"UNBOUND", .dispatch, 0x15, 0x1D⟩ ↔ ∃ k, i = .unbound k := by
  cases i <;> simp [Instr.row]

theorem row_eq_releaseOps_iff : i.row = ⟨"RELEASE_OPS", .dispatch, 0x10, 0x19⟩ ↔ ∃ k, i = .releaseOps k := by
  cases i <;> simp [Instr.row]

end

/-- The encoding of a row, from the instructions that belong to it. -/
theorem encoding_of_row {r : OpcodeRow} {P : Instr → Prop}
    (hr : r ∈ opcodeTable.filter (fun r => r.format == .dispatch))
    (hP : ∀ i : Instr, i.row = r ↔ P i) (d : BitVec 5) :
    d &&& BitVec.ofNat 5 r.mask = BitVec.ofNat 5 r.pattern ↔ P (decode (.dispatch d)) :=
  (matches_iff_decode_row r hr d).trans (hP _)

/-! ### What each instruction services: its line, with its event's action -/

section
variable (p : Phase) (k : Line) (s : State)

theorem exec_confirm : exec (.confirm p) s = service .l0 .falling (eventAction .firstOperandInput .l0 .falling) s := rfl

theorem exec_append0 : exec (.append0 p) s = service .l1 .falling (eventAction .firstOperandInput .l1 .falling) s := rfl

theorem exec_append1 : exec (.append1 p) s = service .l2 .falling (eventAction .firstOperandInput .l2 .falling) s := rfl

theorem exec_backspace : exec (.backspace p) s = service .l3 .falling (eventAction .firstOperandInput .l3 .falling) s := rfl

theorem exec_confirmOp : exec .confirmOp s = service .l0 .falling (eventAction .operationSelection .l0 .falling) s := rfl

theorem exec_cycle : exec .cycle s = service .l1 .falling (eventAction .operationSelection .l1 .falling) s := rfl

theorem exec_releaseOpi : exec (.releaseOpi p k) s = service k .rising noAction s := rfl

theorem exec_releaseOps : exec (.releaseOps k) s = service k .rising noAction s := rfl

theorem exec_unbound : exec (.unbound k) s = service k .falling noAction s := rfl

end

/-! ### The edits as one update -/

section
variable (s : State)

theorem appendZero_eq : s.appendZero = { s with bidx := if s.bidx.toNat < 64 then s.bidx + 1 else s.bidx } := by
  by_cases h : s.bidx.toNat < 64
  · rw [State.appendZero_of_lt h, if_pos h]
  · rw [State.appendZero_of_full h, if_neg h]

theorem appendOne_eq :
    s.appendOne =
      { s.setOperand s.cur
          (if s.bidx.toNat < 64 then s.operand s.cur ||| (1#64 <<< s.bidx.toNat) else s.operand s.cur) with
        bidx := if s.bidx.toNat < 64 then s.bidx + 1 else s.bidx } := by
  by_cases h : s.bidx.toNat < 64
  · simp only [State.appendOne_of_lt h, if_pos h]
  · simp only [State.appendOne_of_full h, if_neg h, State.setOperand_operand]

theorem backspace_eq :
    s.backspace =
      { s.setOperand s.cur
          (if 0 < s.bidx.toNat then s.operand s.cur &&& ~~~(1#64 <<< (s.bidx.toNat - 1)) else s.operand s.cur) with
        bidx := if 0 < s.bidx.toNat then s.bidx - 1 else s.bidx } := by
  by_cases h : 0 < s.bidx.toNat
  · simp only [State.backspace_of_pos h, if_pos h]
  · simp only [State.backspace_of_empty h, if_neg h, State.setOperand_operand]

/-- The window of an operand and a cursor just written. -/
theorem operandLamps_setOperand (w : Word) (b : BitVec 7) :
    ({ s.setOperand s.cur w with bidx := b } : State).operandLamps = nibble (windowValue w b) := by
  rw [State.operandLamps, State.operand_with_bidx]
  simp

/-- The operation's successor modulo 4 (43_op_selector.md R151). -/
theorem cycleOp_eq : s.cycleOp = { s with op := BitVec.ofNat 2 ((s.op.toNat + 1) % 4) } := by
  have hsucc : s.op + 1 = BitVec.ofNat 2 ((s.op.toNat + 1) % 4) := by
    apply BitVec.eq_of_toNat_eq
    simp [BitVec.toNat_add]
  rw [State.cycleOp, hsucc]

/-- The operation's two bits are on lamps 2 and 3 (43_op_selector.md R154). -/
theorem opLamps_eq (o : BitVec 2) : opLamps o = ⟨false, false, o.getLsbD 1, o.getLsbD 0⟩ := by
  revert o
  decide

end

/-! ### The operand-phase commands -/

/-- Settles O7: a press on line 0 renders nothing and merges false into `keep`. -/
theorem confirmReturnsFalse : Obligations.ConfirmReturnsFalse := by
  refine ⟨encoding_of_row (by decide) row_eq_confirm_iff, fun p s => ⟨fun hs => ?_, fun ds hd => ?_⟩⟩
  · rw [exec_confirm, service_event_of_no_render (by decide) rfl hs]
    simp [eventReturns]
  · rw [exec_confirm, service_of_fails hd]

/-- Settles O8: a rendering event whose edit is `appendZero`. -/
theorem append0MovesCursor : Obligations.Append0MovesCursor := by
  refine ⟨encoding_of_row (by decide) row_eq_append0_iff,
    fun p s => ⟨fun hs => ?_, fun ds hd => ?_, fun ds hd => ?_⟩⟩
  · rw [exec_append0, service_event_of_render (by decide) rfl hs, eventEdit, appendZero_eq]
    rfl
  · rw [exec_append0, service_of_fails hd]
  · rw [exec_append0, service_event_of_render_fails (by decide) rfl hd, eventEdit, appendZero_eq]

/-- Settles O9: a rendering event whose edit is `appendOne`. -/
theorem append1SetsBitAtCursor : Obligations.Append1SetsBitAtCursor := by
  refine ⟨encoding_of_row (by decide) row_eq_append1_iff,
    fun p s => ⟨fun hs => ?_, fun ds hd => ?_, fun ds hd => ?_⟩⟩
  · rw [exec_append1, service_event_of_render (by decide) rfl hs, eventEdit, appendOne_eq,
      eventLamps_of_operand rfl, operandLamps_setOperand]
  · rw [exec_append1, service_of_fails hd]
  · rw [exec_append1, service_event_of_render_fails (by decide) rfl hd, eventEdit, appendOne_eq]

/-- Settles O10: a rendering event whose edit is `backspace`. -/
theorem backspaceClearsBitBelowCursor : Obligations.BackspaceClearsBitBelowCursor := by
  refine ⟨encoding_of_row (by decide) row_eq_backspace_iff,
    fun p s => ⟨fun hs => ?_, fun ds hd => ?_, fun ds hd => ?_⟩⟩
  · rw [exec_backspace, service_event_of_render (by decide) rfl hs, eventEdit, backspace_eq,
      eventLamps_of_operand rfl, operandLamps_setOperand]
  · rw [exec_backspace, service_of_fails hd]
  · rw [exec_backspace, service_event_of_render_fails (by decide) rfl hd, eventEdit, backspace_eq]

/-! ### Words that only consume -/

/-- An event without a callback is read and its line leaves `S`. -/
theorem service_noAction {k : Line} {e : Edge} {s : State} (h : s.succeeding 1) :
    service k e noAction s = .next { s with
      ready := s.ready.erase k
      q := s.q.set k (s.q.get k).tail
      trace := s.trace ++ [.consume k e]
      draws := s.draws.drop 1 } :=
  service_of_ongoing h rfl

/-- Settles O11: each of the three services its line with no callback. -/
theorem noOpWordsOnlyConsume : Obligations.NoOpWordsOnlyConsume := by
  refine ⟨encoding_of_row (by decide) row_eq_releaseOpi_iff, encoding_of_row (by decide) row_eq_unbound_iff,
    encoding_of_row (by decide) row_eq_releaseOps_iff, fun i k e s hi => ?_⟩
  have hexec : exec i s = service k e noAction s := by
    rcases hi with ⟨p, rfl, rfl⟩ | ⟨rfl, rfl⟩ | ⟨rfl, rfl⟩
    · exact exec_releaseOpi p k s
    · exact exec_releaseOps k s
    · exact exec_unbound k s
  rw [hexec]
  exact ⟨fun hs => service_noAction hs, fun ds hd => service_of_fails hd⟩

/-! ### The OperationSelection commands -/

/-- Settles O16: a press on line 0 renders nothing and merges false into `keep`. -/
theorem confirmOpReturnsFalse : Obligations.ConfirmOpReturnsFalse := by
  refine ⟨encoding_of_row (by decide) row_eq_confirmOp_iff, fun s => ⟨fun hs => ?_, fun ds hd => ?_⟩⟩
  · rw [exec_confirmOp, service_event_of_no_render (by decide) rfl hs]
    simp [eventReturns]
  · rw [exec_confirmOp, service_of_fails hd]

/-- Settles O17: a rendering event whose edit is `cycleOp`. -/
theorem cycleAdvancesOperation : Obligations.CycleAdvancesOperation := by
  refine ⟨encoding_of_row (by decide) row_eq_cycle_iff,
    fun s => ⟨fun hs => ?_, fun ds hd => ?_, fun ds hd => ?_⟩⟩
  · rw [exec_cycle, service_event_of_render (by decide) rfl hs, eventEdit, cycleOp_eq, eventLamps, opLamps_eq]
  · rw [exec_cycle, service_of_fails hd]
  · rw [exec_cycle, service_event_of_render_fails (by decide) rfl hd, eventEdit, cycleOp_eq]

/-- Settles O33: HELD is the identity. -/
theorem heldLeavesEventQueued : Obligations.HeldLeavesEventQueued := fun _ _ _ => rfl

/-! ### The render -/

/-- The window's bit `i` is the operand's bit `lo + i`. -/
theorem getLsbD_windowValue (w : Word) (b : BitVec 7) {i : Nat} (hi : i < 4) :
    (windowValue w b).getLsbD i = w.getLsbD (windowLow b + i) := by
  rw [windowValue, BitVec.getLsbD_setWidth, BitVec.getLsbD_ushiftRight]
  simp [hi]

theorem get_nibble (v : BitVec 4) (k : Line) : (nibble v).get k = v.getLsbD (3 - k.code.toNat) := by
  cases k <;> rfl

theorem code_le_three (k : Line) : k.code.toNat ≤ 3 := by
  cases k <;> decide

/-- Lamp `k` shows bit `lo + 3 - k` of the current operand. -/
theorem get_operandLamps (s : State) (k : Line) :
    s.operandLamps.get k = (s.operand s.cur).getLsbD (windowLow s.bidx + 3 - k.code.toNat) := by
  have hk := code_le_three k
  have hsum : windowLow s.bidx + 3 - k.code.toNat = windowLow s.bidx + (3 - k.code.toNat) := by omega
  rw [State.operandLamps, get_nibble, getLsbD_windowValue _ _ (by omega), hsum]

/-- Settles O12: the window's low end is four below the cursor, its bits are read from the operand, and those at or above the
cursor are in the clean tail. -/
theorem renderShowsWindowBelowCursor : Obligations.RenderShowsWindowBelowCursor := by
  intro s
  refine ⟨?low, get_operandLamps s, fun hclean k hk => ?dark, fun hs => writeLamps_of_succeeding _ hs⟩
  case low =>
    rw [windowLow]
    omega
  case dark =>
    rw [get_operandLamps]
    exact (s.cleanTail_iff.1 hclean) _ hk

end Sys2Proof.Proofs
end

section
/-! Sequences of edits: bounds, the order of the bits, BACKSPACE as an undo, and cycling (42_edit_buffer.md section 3,
43_op_selector.md section 2). -/

namespace Sys2Proof.Proofs

open Sys2Proof.Machine

/-! ### Bounds -/

/-- What R141 allows an edit of the current operand to change: at most the bits `touched` names. -/
structure EditsOnly (touched : Nat → Prop) (s t : State) : Prop where
  bound : t.bidx.toNat ≤ 64
  cur : t.cur = s.cur
  other : ∀ x, x ≠ s.cur → t.operand x = s.operand x
  bits : ∀ j, (t.operand s.cur).getLsbD j ≠ (s.operand s.cur).getLsbD j → touched j

theorem EditsOnly.of_registers {touched : Nat → Prop} {s t v : State} (h : EditsOnly touched s v)
    (ht : SameRegisters t v) : EditsOnly touched s t where
  bound := ht.bidx ▸ h.bound
  cur := ht.cur.trans h.cur
  other x hx := (ht.operand x).trans (h.other x hx)
  bits j hj := h.bits j (by rwa [ht.operand] at hj)

theorem EditsOnly.refl (touched : Nat → Prop) {s : State} (h : s.bidx.toNat ≤ 64) : EditsOnly touched s s :=
  ⟨h, rfl, fun _ _ => rfl, fun _ hj => absurd rfl hj⟩

section
variable {s : State} (h : s.bidx.toNat ≤ 64)
include h

theorem editsOnly_appendZero (touched : Nat → Prop) : EditsOnly touched s s.appendZero where
  bound := State.appendZero_bidx_le h
  cur := s.appendZero_cur
  other x _ := s.appendZero_operand x
  bits j hj := absurd (by rw [State.appendZero_operand]) hj

theorem editsOnly_appendOne : EditsOnly (· = s.bidx.toNat) s s.appendOne where
  bound := State.appendOne_bidx_le h
  cur := s.appendOne_cur
  other _ hx := s.appendOne_operand_ne hx
  bits j hj := by
    rw [State.appendOne_operand_cur] at hj
    split at hj
    next hlt =>
      by_contra hne
      rw [getLsbD_setBit _ hlt] at hj
      simp [hne] at hj
    next => exact absurd rfl hj

theorem editsOnly_backspace : EditsOnly (· + 1 = s.bidx.toNat) s s.backspace where
  bound := State.backspace_bidx_le h
  cur := s.backspace_cur
  other _ hx := s.backspace_operand_ne hx
  bits j hj := by
    rw [State.backspace_operand_cur] at hj
    split at hj
    next hpos =>
      by_contra hne
      have hne' : j ≠ s.bidx.toNat - 1 := by omega
      rw [getLsbD_clearBit _ (by omega)] at hj
      simp [hne'] at hj
    next => exact absurd rfl hj

end

/-- A serviced event edits as its edit does, or not at all. -/
theorem EditsOnly.of_service {touched : Nat → Prop} {p : Phase} {k : Line} {e : Edge} {s t : State}
    (hp : p ≠ .resultDisplay) (hs : s.bidx.toNat ≤ 64) (hedit : EditsOnly touched s (eventEdit p k e s))
    (h : service k e (eventAction p k e) s = .next t) : EditsOnly touched s t :=
  (event_registers hp h).elim (fun ht => (EditsOnly.refl touched hs).of_registers ht) hedit.of_registers

/-- Settles O13: on every path the registers are as they were or as the command's edit leaves them. -/
theorem editCommandsStayInBounds : Obligations.EditCommandsStayInBounds := by
  intro i p s t hi hs hexec
  have hedits : EditsOnly
      (fun j => (i = .append1 p ∧ j = s.bidx.toNat) ∨ (i = .backspace p ∧ j + 1 = s.bidx.toNat)) s t := by
    rcases hi with rfl | rfl | rfl | rfl
    · rw [exec_append0] at hexec
      exact .of_service (by decide) hs (editsOnly_appendZero hs _) hexec
    · rw [exec_append1] at hexec
      have h := EditsOnly.of_service (by decide) hs (editsOnly_appendOne hs) hexec
      exact ⟨h.bound, h.cur, h.other, fun j hj => .inl ⟨rfl, h.bits j hj⟩⟩
    · rw [exec_backspace] at hexec
      have h := EditsOnly.of_service (by decide) hs (editsOnly_backspace hs) hexec
      exact ⟨h.bound, h.cur, h.other, fun j hj => .inr ⟨rfl, h.bits j hj⟩⟩
    · rw [exec_confirm] at hexec
      exact .of_service (by decide) hs (EditsOnly.refl _ hs) hexec
  exact ⟨hedits.bound, hedits.cur, hedits.other, hedits.bits⟩

/-! ### Appends -/

/-- The edit of the append command for bit `b`. -/
def appendBit (b : Bool) (s : State) : State := if b then s.appendOne else s.appendZero

theorem runInstrs_cons {i : Instr} {s t : State} (is : List Instr) (h : exec i s = .next t) :
    runInstrs (i :: is) s = runInstrs is t := by
  simp only [runInstrs, h]

theorem exec_appendInstr (p : Phase) (b : Bool) {s : State} (h : s.neverFailing) :
    ∃ t, exec (appendInstr p b) s = .next t ∧ t.neverFailing ∧ SameRegisters t (appendBit b s) := by
  cases b with
  | false => exact service_event_of_neverFailing (p := .firstOperandInput) (k := .l1) (e := .falling) (by decide) rfl h
  | true => exact service_event_of_neverFailing (p := .firstOperandInput) (k := .l2) (e := .falling) (by decide) rfl h

theorem exec_backspace_of_neverFailing (p : Phase) {s : State} (h : s.neverFailing) :
    ∃ t, exec (.backspace p) s = .next t ∧ t.neverFailing ∧ SameRegisters t s.backspace :=
  service_event_of_neverFailing (p := .firstOperandInput) (k := .l3) (e := .falling) (by decide) rfl h

theorem appendBit_cur (b : Bool) (s : State) : (appendBit b s).cur = s.cur := by
  cases b
  · exact s.appendZero_cur
  · exact s.appendOne_cur

theorem appendBit_bidx (b : Bool) (s : State) :
    (appendBit b s).bidx = if s.bidx.toNat < 64 then s.bidx + 1 else s.bidx := by
  cases b
  · exact s.appendZero_bidx
  · exact s.appendOne_bidx

theorem appendBit_bidx_toNat (b : Bool) {s : State} (h : s.bidx.toNat ≤ 64) :
    (appendBit b s).bidx.toNat = min (s.bidx.toNat + 1) 64 := by
  rw [appendBit_bidx]
  split
  next hlt => rw [bidx_add_one_toNat hlt]; omega
  next => omega

theorem appendBit_operand_ne (b : Bool) (s : State) {x : OperandIndex} (hx : x ≠ s.cur) :
    (appendBit b s).operand x = s.operand x := by
  cases b
  · exact s.appendZero_operand x
  · exact s.appendOne_operand_ne hx

theorem appendBit_cleanTail (b : Bool) {s : State} (h : s.cleanTail) : (appendBit b s).cleanTail := by
  cases b
  · exact State.appendZero_cleanTail h
  · exact State.appendOne_cleanTail h

/-- A clean tail bounds the operand by the cursor. -/
theorem toNat_lt_of_cleanTail {s : State} (h : s.cleanTail) : (s.operand s.cur).toNat < 2 ^ s.bidx.toNat := by
  have hdiv : (s.operand s.cur).toNat / 2 ^ s.bidx.toNat = 0 := by
    have hnat := congrArg BitVec.toNat h
    rwa [BitVec.toNat_ushiftRight, Nat.shiftRight_eq_div_pow] at hnat
  exact (Nat.div_eq_zero_iff_lt (Nat.two_pow_pos _)).1 hdiv

/-- Setting a bit above a clean tail adds its weight. -/
theorem toNat_setBit {w : Word} {n : Nat} (hn : n < 64) (hw : w.toNat < 2 ^ n) :
    (w ||| (1#64 <<< n)).toNat = w.toNat + 2 ^ n := by
  have hpow : 2 ^ n < 2 ^ 64 := Nat.pow_lt_pow_right (by decide) hn
  have hone : (1#64 <<< n).toNat = 2 ^ n := by
    rw [BitVec.toNat_shiftLeft, Nat.shiftLeft_eq]
    simpa using hpow
  rw [BitVec.toNat_or, hone, Nat.or_comm]
  have hadd := Nat.two_pow_add_eq_or_of_lt hw 1
  rw [Nat.mul_one] at hadd
  rw [← hadd, Nat.add_comm]

/-- Below the bound, an append adds its bit with the weight of the cursor. -/
theorem appendBit_operand_toNat (b : Bool) {s : State} (hlt : s.bidx.toNat < 64) (h : s.cleanTail) :
    ((appendBit b s).operand s.cur).toNat = (s.operand s.cur).toNat + 2 ^ s.bidx.toNat * b.toNat := by
  cases b with
  | false => simp [appendBit]
  | true =>
    have hset := toNat_setBit hlt (toNat_lt_of_cleanTail h)
    simp only [appendBit, if_true, State.appendOne_operand_cur, if_pos hlt]
    simpa using hset

/-- At the bound, an append changes nothing. -/
theorem appendBit_of_full (b : Bool) {s : State} (h : ¬s.bidx.toNat < 64) : appendBit b s = s := by
  cases b
  · exact State.appendZero_of_full h
  · exact State.appendOne_of_full h

theorem cleanTail_of_registers {t v : State} (ht : SameRegisters t v) (h : v.cleanTail) : t.cleanTail := by
  rw [State.cleanTail, ht.operand, ht.cur, ht.bidx]
  exact h

/-- Appends from a clean operand: the bits are added with the weights from the cursor on, up to weight 63. -/
theorem runInstrs_appends (p : Phase) (bits : List Bool) (s : State) (hb : s.bidx.toNat ≤ 64) (hclean : s.cleanTail)
    (hok : s.neverFailing) :
    ∃ t, runInstrs (bits.map (appendInstr p)) s = .next t ∧
      t.bidx.toNat = min (s.bidx.toNat + bits.length) 64 ∧ t.cur = s.cur ∧
      (t.operand s.cur).toNat =
        (s.operand s.cur).toNat + 2 ^ s.bidx.toNat * valueOfBits (bits.take (64 - s.bidx.toNat)) ∧
      ∀ x, x ≠ s.cur → t.operand x = s.operand x := by
  induction bits generalizing s with
  | nil => exact ⟨s, rfl, by simp [hb], rfl, by simp [valueOfBits], fun _ _ => rfl⟩
  | cons b bs ih =>
    obtain ⟨v, hv, hvok, hreg⟩ := exec_appendInstr p b hok
    have hvb : v.bidx.toNat = min (s.bidx.toNat + 1) 64 := by rw [hreg.bidx, appendBit_bidx_toNat b hb]
    have hvcur : v.cur = s.cur := by rw [hreg.cur, appendBit_cur]
    have hvclean : v.cleanTail := cleanTail_of_registers hreg (appendBit_cleanTail b hclean)
    obtain ⟨t, ht, htb, htcur, htop, htne⟩ := ih v (by omega) hvclean hvok
    rw [hvcur] at htcur htop htne
    refine ⟨t, by rw [List.map_cons, runInstrs_cons _ hv, ht], ?_, htcur, ?_, fun x hx => ?_⟩
    · rw [htb, hvb, List.length_cons]
      omega
    · rw [htop, hreg.operand, hvb]
      by_cases hlt : s.bidx.toNat < 64
      · have htake : 64 - s.bidx.toNat = (64 - (s.bidx.toNat + 1)) + 1 := by omega
        rw [appendBit_operand_toNat b hlt hclean, Nat.min_eq_left (by omega), htake, List.take_succ_cons, valueOfBits,
          Nat.pow_succ]
        ring
      · have hfull : 64 - s.bidx.toNat = 0 := by omega
        have hfull' : 64 - min (s.bidx.toNat + 1) 64 = 0 := by omega
        rw [appendBit_of_full b hlt, hfull, hfull']
        simp [valueOfBits]
    · rw [htne x hx, hreg.operand, appendBit_operand_ne b s hx]

/-- Settles O14: the appends from an empty operand and the cursor at 0. -/
theorem appendsBuildOperandLsbFirst : Obligations.AppendsBuildOperandLsbFirst := by
  intro p bits s hb hw hok
  have hclean : s.cleanTail := by
    rw [State.cleanTail, hw]
    exact BitVec.zero_ushiftRight
  obtain ⟨t, ht, htb, htcur, htop, htne⟩ := runInstrs_appends p bits s (by simp [hb]) hclean hok
  refine ⟨t, ht, by simpa [hb] using htb, htcur, ?_, htne⟩
  rw [htcur]
  simpa [hb, hw] using htop

/-! ### BACKSPACE after an append -/

/-- What the edits read and write: the current operand and the cursor. -/
def buffer (s : State) : Word × BitVec 7 := (s.operand s.cur, s.bidx)

theorem buffer_of_registers {t v : State} (h : SameRegisters t v) : buffer t = buffer v := by
  rw [buffer, h.operand, h.cur, h.bidx, buffer]

/-- APPEND1 gives the same buffer from the same buffer. -/
theorem buffer_appendOne_congr {s t : State} (h : buffer s = buffer t) : buffer s.appendOne = buffer t.appendOne := by
  obtain ⟨hw, hb⟩ := Prod.mk.inj h
  simp only [buffer, State.appendOne_cur, State.appendOne_operand_cur, State.appendOne_bidx, hw, hb]

/-- BACKSPACE gives the same buffer from the same buffer. -/
theorem buffer_backspace_congr {s t : State} (h : buffer s = buffer t) : buffer s.backspace = buffer t.backspace := by
  obtain ⟨hw, hb⟩ := Prod.mk.inj h
  simp only [buffer, State.backspace_cur, State.backspace_operand_cur, State.backspace_bidx, hw, hb]

/-- The append leaves the bits below its own alone, and its own bit was 0 in the clean tail. -/
theorem getLsbD_appendBit_of_ne (b : Bool) (s : State) {j : Nat} (hj : j ≠ s.bidx.toNat) :
    ((appendBit b s).operand s.cur).getLsbD j = (s.operand s.cur).getLsbD j := by
  cases b with
  | false => rw [appendBit, if_neg (by decide), State.appendZero_operand]
  | true =>
    rw [appendBit, if_pos rfl, State.appendOne_operand_cur]
    split
    next hlt => simp [getLsbD_setBit _ hlt, hj]
    next => rfl

/-- BACKSPACE after an append clears the appended bit, which was 0, and moves the cursor back to it. -/
theorem buffer_backspace_appendBit (b : Bool) {s : State} (hlt : s.bidx.toNat < 64) (h : s.cleanTail) :
    buffer (appendBit b s).backspace = buffer s := by
  have hbidx : (appendBit b s).bidx = s.bidx + 1 := by rw [appendBit_bidx, if_pos hlt]
  have hnat : (appendBit b s).bidx.toNat = s.bidx.toNat + 1 := by rw [hbidx, bidx_add_one_toNat hlt]
  have hpos : 0 < (appendBit b s).bidx.toNat := by omega
  have hword : (appendBit b s).backspace.operand s.cur = s.operand s.cur := by
    apply BitVec.eq_of_getLsbD_eq
    intro j _
    have hback := (appendBit b s).backspace_operand_cur
    rw [appendBit_cur, if_pos hpos, hnat, Nat.add_sub_cancel] at hback
    rw [hback, getLsbD_clearBit _ hlt]
    by_cases hj : j = s.bidx.toNat
    · simp [hj, s.cleanTail_iff.1 h _ le_rfl]
    · simp [getLsbD_appendBit_of_ne b s hj, hj]
  rw [buffer, State.backspace_cur, appendBit_cur, hword, State.backspace_bidx, if_pos hpos, hbidx, buffer]
  simp

/-- Settles O15: the append and its BACKSPACE give back the buffer, so what follows is as if neither had been. -/
theorem backspaceUndoesAppend : Obligations.BackspaceUndoesAppend := by
  intro p b s hlt hclean hok
  obtain ⟨a, ha, haok, hareg⟩ := exec_appendInstr p b hok
  obtain ⟨t, ht, htok, htreg⟩ := exec_backspace_of_neverFailing p haok
  obtain ⟨u, hu, -, hureg⟩ := exec_appendInstr p true htok
  obtain ⟨v, hv, -, hvreg⟩ := exec_appendInstr p true hok
  have hundo : buffer t = buffer s := by
    rw [buffer_of_registers htreg, buffer_backspace_congr (buffer_of_registers hareg),
      buffer_backspace_appendBit b hlt hclean]
  have hagain : buffer u = buffer v := by
    rw [buffer_of_registers hureg, buffer_of_registers hvreg]
    exact buffer_appendOne_congr hundo
  refine ⟨t, u, v, ?_, ?_, ?_, hundo, hagain⟩
  · rw [runInstrs_cons _ ha, runInstrs_cons _ ht, runInstrs]
  · rw [runInstrs_cons _ ha, runInstrs_cons _ ht, runInstrs_cons _ (show exec (.append1 p) t = .next u from hu), runInstrs]
  · rw [runInstrs_cons _ (show exec (.append1 p) s = .next v from hv), runInstrs]

/-! ### Cycling -/

theorem exec_cycle_of_neverFailing {s : State} (h : s.neverFailing) :
    ∃ t, exec .cycle s = .next t ∧ t.neverFailing ∧ SameRegisters t s.cycleOp :=
  service_event_of_neverFailing (p := .operationSelection) (k := .l1) (e := .falling) (by decide) rfl h

theorem runInstrs_cycles (n : Nat) (s : State) (hok : s.neverFailing) :
    ∃ t, runInstrs (List.replicate n .cycle) s = .next t ∧ t.op.toNat = (s.op.toNat + n) % 4 := by
  induction n generalizing s with
  | zero => exact ⟨s, rfl, (Nat.mod_eq_of_lt s.op.isLt).symm⟩
  | succ n ih =>
    obtain ⟨v, hv, hvok, hreg⟩ := exec_cycle_of_neverFailing hok
    obtain ⟨t, ht, htop⟩ := ih v hvok
    have hvop : v.op.toNat = (s.op.toNat + 1) % 4 := by
      rw [hreg.op, cycleOp_eq, BitVec.toNat_ofNat]
      exact Nat.mod_mod _ 4
    refine ⟨t, by rw [List.replicate_succ, runInstrs_cons _ hv, ht], ?_⟩
    rw [htop, hvop]
    omega

/-- Settles O18. -/
theorem cyclingIsModuloFour : Obligations.CyclingIsModuloFour := by
  intro n s hok
  obtain ⟨t, ht, hop⟩ := runInstrs_cycles n s hok
  refine ⟨t, ht, hop, fun h0 => by simpa [h0] using hop, fun h4 => ?_⟩
  apply BitVec.eq_of_toNat_eq
  have hlt := s.op.isLt
  omega

end Sys2Proof.Proofs
end

section
/-! The quotient, the arithmetic laws and the choice of the operation (44_alu.md). -/

namespace Sys2Proof.Proofs

open Sys2Proof.Machine

/-! ### The quotient -/

theorem divResult_zero (a : Word) : divResult a 0 = 0 := if_pos rfl

theorem divResult_of_ne (a : Word) {b : Word} (h : b ≠ 0) : divResult a b = BitVec.ofNat 64 (a.toNat / b.toNat) := if_neg h

/-- The floor quotient is no more than the dividend, so it fits. -/
theorem divResult_toNat (a : Word) {b : Word} (h : b ≠ 0) : (divResult a b).toNat = a.toNat / b.toNat := by
  rw [divResult_of_ne a h, BitVec.toNat_ofNat]
  exact Nat.mod_eq_of_lt (Nat.lt_of_le_of_lt (Nat.div_le_self _ _) a.isLt)

/-- The quotient is the floor: the dividend is at least `q * b` and below `(q + 1) * b` (44_alu.md R170). -/
theorem divResult_floor (a : Word) {b : Word} (h : b ≠ 0) :
    (divResult a b).toNat * b.toNat ≤ a.toNat ∧ a.toNat < ((divResult a b).toNat + 1) * b.toNat := by
  have hpos : 0 < b.toNat := Nat.pos_of_ne_zero fun h0 => h (BitVec.eq_of_toNat_eq h0)
  rw [divResult_toNat a h]
  exact ⟨Nat.div_mul_le_self _ _, (Nat.div_lt_iff_lt_mul hpos).1 (Nat.lt_succ_self _)⟩

theorem exec_div (s : State) :
    exec .div s =
      .next ((if s.operand1 = 0 then s.emit .divZeroLog else s).setResult (divResult s.operand0 s.operand1)) := rfl

/-- Settles O23: the ALU word 0b11, by whether the divisor is 0. -/
theorem divWritesQuotient : Obligations.DivWritesQuotient := by
  refine ⟨fun o => alu_matches_iff o 0b11#2, fun s => ⟨fun h0 => ?_, fun h0 => ?_⟩⟩
  · have hzero : divResult s.operand0 s.operand1 = 0 := by rw [h0, divResult_zero]
    rw [exec_div, if_pos h0, hzero, State.emit, State.setResult]
  · rw [exec_div, if_neg h0, divResult_of_ne _ h0, State.setResult]

/-! ### Laws -/

theorem addResult_toNat (a b : Word) : (addResult a b).toNat = (a.toNat + b.toNat) % 2 ^ 64 := BitVec.toNat_add a b

/-- Settles O24: the laws of the sum and the product are those of words, that of the quotient is `divResult_floor`, and
SUB and DIV do not commute. -/
theorem arithmeticLaws : Obligations.ArithmeticLaws := by
  refine ⟨fun a b => ⟨fun hcarry => ?carry, fun hfits => ?fits, BitVec.sub_add_cancel a b, BitVec.toNat_mul a b,
    BitVec.add_comm a b, BitVec.mul_comm a b, fun hb => divResult_floor a hb, divResult_zero a⟩,
    ⟨1, 0, by decide⟩, ⟨2, 1, ?noncomm⟩⟩
  case carry =>
    have ha := a.isLt
    have hb := b.isLt
    rw [addResult_toNat]
    omega
  case fits => rw [addResult_toNat, Nat.mod_eq_of_lt hfits]
  case noncomm => decide

/-! ### Selection -/

theorem calculate_code (a b : Word) :
    calculate a b 0 = addResult a b ∧ calculate a b 1 = subResult a b ∧ calculate a b 2 = mulResult a b ∧
      calculate a b 3 = divResult a b :=
  ⟨rfl, rfl, rfl, rfl⟩

/-- Settles O26. -/
theorem calculateSelectsByOperation : Obligations.CalculateSelectsByOperation := ⟨calculate_code, exec_alu⟩

/-- Settles O25: the environment's turn leaves the operands and the operation, and the entry runs the ALU word in `op`. -/
theorem displayEntryComputesResult : Obligations.DisplayEntryComputesResult := by
  intro s hrun hstop hphase hctl
  rw [step_of_displayEntry hrun hstop hphase hctl, State.displayEntered]
  simp only [deliver_operand0, deliver_operand1, deliver_op, deliver_trace]

end Sys2Proof.Proofs
end

section
/-! The steps of the display and the trace of a whole ResultDisplay (45_output_encoder.md). -/

namespace Sys2Proof.Proofs

open Sys2Proof.Machine

/-! ### One encoder step -/

/-- Settles O27. -/
theorem nibbleMapsBitsToLamps : Obligations.NibbleMapsBitsToLamps := fun v _ =>
  ⟨get_nibble v, fun hs => writeLamps_of_succeeding _ hs, fun _ hd => writeLamps_of_fails _ hd⟩

/-- The control states of the encoder: a dispatcher's phase has none of them. -/
def isEncoder (c : Ctl) : Prop := ctlOccurs .operationSelection c = false

section
variable {s : State} {v : LampVec} {d : Duration} {after : State → State} (hrun : s.status = .running)
  (hphase : s.phase = .resultDisplay) (hctl : isEncoder s.ctl)
  (hpulse : encoderStep (deliver s) = pulse v d after (deliver s))
include hrun hphase hctl hpulse

theorem step_pulse_of_succeeding (hs : s.succeeding 1) :
    step s = .next (after ((deliver s).pulsed v d)) := by
  rw [step_of_encoder hrun hphase hctl, hpulse, pulse_of_succeeding _ _ _ ((deliver_succeeding s 1).2 hs)]
  rfl

theorem step_pulse_of_fails {ds : List Bool} (hd : s.draws = true :: ds) :
    step s = .next (({ deliver s with draws := ds } : State).raiseFatal .io) := by
  rw [step_of_encoder hrun hphase hctl, hpulse, pulse_of_fails _ _ _ (by rwa [deliver_draws])]

end

theorem deliver_ctl_of {s : State} {c : Ctl} (h : s.ctl = c) : (deliver s).ctl = c := (deliver_ctl s).trans h

theorem deliver_pulsed (s : State) (v : LampVec) (d : Duration) :
    (deliver s).pulsed v d =
      { deliver s with lamps := v, trace := s.trace ++ [.lamps v, .pause d], draws := s.draws.drop 1 } := by
  rw [State.pulsed, deliver_trace, deliver_draws]

theorem afterShine1_eq (i : Fin 12) :
    afterShine1 i = if h : i.val < 11 then .shine1 ⟨i.val + 1, Nat.succ_lt_succ h⟩ .on else .bit 0 .hold := by
  by_cases h : i.val < 11
  · rw [afterShine1, dif_pos (Nat.succ_lt_succ h), dif_pos h]
  · rw [afterShine1, dif_neg (by omega), dif_neg h]

theorem afterBit_eq (j : Fin 64) :
    afterBit j = if h : j.val < 63 then .bit ⟨j.val + 1, Nat.succ_lt_succ h⟩ .hold else .shine2 0 .on := by
  by_cases h : j.val < 63
  · rw [afterBit, dif_pos (Nat.succ_lt_succ h), dif_pos h]
  · rw [afterBit, dif_neg (by omega), dif_neg h]

/-- In ResultDisplay, the second flourish goes on to the next cycle, or wraps to FirstOperandInput's entry. -/
theorem finishShine2_eq (i : Fin 12) {t : State} (hphase : t.phase = .resultDisplay) :
    finishShine2 i t = { t with
      ctl := if h : i.val < 11 then .shine2 ⟨i.val + 1, Nat.succ_lt_succ h⟩ .on else .entry
      phase := if i.val < 11 then .resultDisplay else .firstOperandInput } := by
  by_cases h : i.val < 11
  · rw [finishShine2, dif_pos (Nat.succ_lt_succ h), dif_pos h, if_pos h, State.goto, ← hphase]
  · rw [finishShine2, dif_neg (by omega), dif_neg h, if_neg h, State.exitPhase, hphase, nextPhase]

/-- Settles O28. -/
theorem firstFlourishSteps : Obligations.FirstFlourishSteps := by
  intro i s hrun hphase
  refine ⟨fun hs hc => ?on, fun hs hc => ?off, fun ds half hd hc => ?fails⟩
  case on =>
    rw [step_pulse_of_succeeding hrun hphase (hc ▸ rfl) (encoderStep_shine1_on (deliver_ctl_of hc)) hs,
      deliver_pulsed, State.goto]
  case off =>
    rw [step_pulse_of_succeeding hrun hphase (hc ▸ rfl) (encoderStep_shine1_off (deliver_ctl_of hc)) hs,
      deliver_pulsed, State.goto, afterShine1_eq]
  case fails =>
    cases half with
    | on => exact step_pulse_of_fails hrun hphase (hc ▸ rfl) (encoderStep_shine1_on (deliver_ctl_of hc)) hd
    | off => exact step_pulse_of_fails hrun hphase (hc ▸ rfl) (encoderStep_shine1_off (deliver_ctl_of hc)) hd

theorem bitPattern_eq (b : Bool) :
    bitPattern b = if b then ⟨true, true, false, false⟩ else ⟨false, false, true, true⟩ := by
  cases b <;> rfl

/-- Settles O29. -/
theorem serialTransmissionSteps : Obligations.SerialTransmissionSteps := by
  intro j s hrun hphase
  refine ⟨fun hs hc => ?hold, fun hs hc => ?gap, fun ds half hd hc => ?fails⟩
  case hold =>
    intro v
    have hv : bitPattern ((deliver s).result.getLsbD j.val) = v := by rw [deliver_result, bitPattern_eq]
    rw [step_pulse_of_succeeding hrun hphase (hc ▸ rfl) (encoderStep_bit_hold (deliver_ctl_of hc)) hs,
      deliver_pulsed, hv, State.goto]
  case gap =>
    rw [step_pulse_of_succeeding hrun hphase (hc ▸ rfl) (encoderStep_bit_gap (deliver_ctl_of hc)) hs,
      deliver_pulsed, State.goto, afterBit_eq]
  case fails =>
    cases half with
    | hold => exact step_pulse_of_fails hrun hphase (hc ▸ rfl) (encoderStep_bit_hold (deliver_ctl_of hc)) hd
    | gap => exact step_pulse_of_fails hrun hphase (hc ▸ rfl) (encoderStep_bit_gap (deliver_ctl_of hc)) hd

/-- Settles O30. -/
theorem secondFlourishSteps : Obligations.SecondFlourishSteps := by
  intro i s hrun hphase
  refine ⟨fun hs hc => ?on, fun hs hc => ?off, fun ds half hd hc => ?fails⟩
  case on =>
    rw [step_pulse_of_succeeding hrun hphase (hc ▸ rfl) (encoderStep_shine2_on (deliver_ctl_of hc)) hs,
      deliver_pulsed, State.goto]
  case off =>
    rw [step_pulse_of_succeeding hrun hphase (hc ▸ rfl) (encoderStep_shine2_off (deliver_ctl_of hc)) hs,
      finishShine2_eq i (t := (deliver s).pulsed _ _) ((deliver_phase s).trans hphase), deliver_pulsed]
  case fails =>
    cases half with
    | on => exact step_pulse_of_fails hrun hphase (hc ▸ rfl) (encoderStep_shine2_on (deliver_ctl_of hc)) hd
    | off => exact step_pulse_of_fails hrun hphase (hc ▸ rfl) (encoderStep_shine2_off (deliver_ctl_of hc)) hd

/-! ### No event is consumed -/

/-- Settles O34: every step of ResultDisplay leaves the queues, and adds lamps, pauses, a division-by-zero event or an
exit. -/
theorem displayConsumesNoEvent : Obligations.DisplayConsumesNoEvent := by
  intro s t hphase hstep
  obtain ⟨-, hcase⟩ := step_cases hstep
  have hu : (deliver s).phase = .resultDisplay := by rwa [deliver_phase]
  rw [← deliver_trace s]
  generalize deliver s = u at hcase hu ⊢
  cases hcase with
  | graceful => exact ⟨rfl, [.exit .success], rfl, by simp⟩
  | first _ _ hp => rw [hu] at hp; cases hp
  | second _ _ hp => rw [hu] at hp; cases hp
  | selection _ _ hp => rw [hu] at hp; cases hp
  | display => exact ⟨rfl, _, rfl, by split <;> simp⟩
  | wait _ hp => exact absurd hu hp
  | cycleEnd _ hp => exact absurd hu hp
  | event _ hp => exact absurd hu hp
  | encoder hctl =>
    generalize ht : encoderStep u = t
    cases ht ▸ encoderStep_cases hctl with
    | halts ds => exact ⟨rfl, [.exit .failure], rfl, by simp⟩
    | goes v d c => exact ⟨rfl, [.lamps v, .pause d], rfl, by simp⟩
    | returns v d => exact ⟨rfl, [.lamps v, .pause d], rfl, by simp⟩

/-! ### Reading the trace of a transmission -/

theorem shineTrace_eq (i n : Nat) : shineTrace n = (List.range' i n).flatMap fun _ => shineCycleTrace := by
  induction n generalizing i with
  | zero => rfl
  | succ n ih => rw [shineTrace, ih (i + 1), List.range'_succ, List.flatMap_cons]

/-- The events of bit `j`. -/
def bitTrace (r : Word) (j : Nat) : List TraceEvent :=
  pulseTrace (bitPattern (r.getLsbD j)) .bit ++ pulseTrace lampsOff .gap

theorem bitsTrace_eq (r : Word) (j n : Nat) : bitsTrace r j n = (List.range' j n).flatMap (bitTrace r) := by
  induction n generalizing j with
  | zero => rfl
  | succ n ih => rw [bitsTrace, ih (j + 1), List.range'_succ, List.flatMap_cons, bitTrace]

/-- A flourish carries no bit. -/
theorem carriedBits_shineTrace (n : Nat) : (shineTrace n).filterMap TraceEvent.carriedBit = [] := by
  induction n with
  | zero => rfl
  | succ n ih =>
    rw [shineTrace, List.filterMap_append, ih]
    rfl

/-- A pattern carries the bit it stands for. -/
theorem carriedBits_bitTrace (r : Word) (j : Nat) :
    (bitTrace r j).filterMap TraceEvent.carriedBit = [r.getLsbD j] := by
  rw [bitTrace]
  cases r.getLsbD j <;> rfl

theorem carriedBits_bitsTrace (r : Word) (j n : Nat) :
    (bitsTrace r j n).filterMap TraceEvent.carriedBit = (List.range' j n).map r.getLsbD := by
  rw [bitsTrace_eq]
  induction n generalizing j with
  | zero => rfl
  | succ n ih =>
    rw [List.range'_succ, List.flatMap_cons, List.filterMap_append, carriedBits_bitTrace, ih, List.map_cons,
      List.singleton_append]

theorem carriedBits_displayTrace (r : Word) :
    (displayTrace r).filterMap TraceEvent.carriedBit = (List.range' 0 64).map r.getLsbD := by
  rw [displayTrace, List.filterMap_append, List.filterMap_append, carriedBits_shineTrace, carriedBits_bitsTrace,
    List.nil_append, List.append_nil]

/-- The bits `j` to `j + n - 1` of a word, least significant first. -/
theorem valueOfBits_range' (r : Word) (j n : Nat) :
    valueOfBits ((List.range' j n).map r.getLsbD) = r.toNat / 2 ^ j % 2 ^ n := by
  induction n generalizing j with
  | zero => simp [valueOfBits, Nat.mod_one]
  | succ n ih =>
    have hbit : (r.getLsbD j).toNat = r.toNat / 2 ^ j % 2 := Nat.toNat_testBit r.toNat j
    rw [List.range'_succ, List.map_cons, valueOfBits, ih, hbit, Nat.pow_succ, ← Nat.div_div_eq_div_mul,
      Nat.pow_succ' (n := n), Nat.mod_mul]

/-- Settles O32: the flourishes carry no bit, and the patterns carry the 64 bits of the result in order. -/
theorem transmissionRoundTrip : Obligations.TransmissionRoundTrip := by
  intro r
  refine ⟨?_, ?_, by decide, by decide⟩
  · rw [receivedValue, carriedBits_displayTrace, valueOfBits_range', Nat.pow_zero, Nat.div_one]
    exact Nat.mod_eq_of_lt r.isLt
  · rw [carriedBits_displayTrace, List.length_map, List.length_range']

/-! ### Pause time -/

theorem traceTime_append (xs ys : List TraceEvent) : traceTime (xs ++ ys) = traceTime xs + traceTime ys := by
  induction xs with
  | nil => simp [traceTime]
  | cons x xs ih => rw [List.cons_append, traceTime, ih, traceTime, Nat.add_assoc]

theorem traceTime_pulseTrace (v : LampVec) (d : Duration) : traceTime (pulseTrace v d) = d.length := by
  simp [pulseTrace, traceTime, TraceEvent.time]

theorem traceTime_shineTrace (n : Nat) : traceTime (shineTrace n) = n * (Config.tShineOn + Config.tShineOff) := by
  induction n with
  | zero => simp [shineTrace, traceTime]
  | succ n ih =>
    rw [shineTrace, traceTime_append, ih, shineCycleTrace, traceTime_append, traceTime_pulseTrace, traceTime_pulseTrace,
      Nat.succ_mul, Nat.add_comm]
    rfl

theorem traceTime_bitsTrace (r : Word) (j n : Nat) :
    traceTime (bitsTrace r j n) = n * (Config.tBit + Config.tGap) := by
  induction n generalizing j with
  | zero => simp [bitsTrace, traceTime]
  | succ n ih =>
    rw [bitsTrace, traceTime_append, traceTime_append, ih, traceTime_pulseTrace, traceTime_pulseTrace, Nat.succ_mul,
      Nat.add_comm]
    rfl

theorem traceTime_displayTrace (r : Word) :
    traceTime (displayTrace r) =
      24 * (Config.tShineOn + Config.tShineOff) + 64 * (Config.tBit + Config.tGap) := by
  rw [displayTrace, traceTime_append, traceTime_append, traceTime_shineTrace, traceTime_bitsTrace]
  omega

end Sys2Proof.Proofs
end

section
/-! A whole ResultDisplay (45_output_encoder.md R187): runs of encoder steps, put together cycle by cycle and bit by bit. -/

namespace Sys2Proof.Proofs

open Sys2Proof.Machine

/-! ### Runs -/

theorem run_zero (s : State) : Host.Core.run core 0 s = .next s := rfl

theorem run_succ {s t : State} (n : Nat) (h : step s = .next t) :
    Host.Core.run core (n + 1) s = Host.Core.run core n t := by
  have hcore : core.step s = .next t := h
  simp only [Host.Core.run, hcore]

theorem run_add {m : Nat} {s t : State} (n : Nat) (h : Host.Core.run core m s = .next t) :
    Host.Core.run core (m + n) s = Host.Core.run core n t := by
  induction m generalizing s with
  | zero =>
    cases h
    rw [Nat.zero_add]
  | succ m ih =>
    cases hs : core.step s with
    | next v =>
      have hv : step s = .next v := hs
      rw [Nat.succ_add, run_succ _ hv]
      rw [run_succ _ hv] at h
      exact ih h
    | fault r => simp only [Host.Core.run, hs] at h; cases h
    | refused r => simp only [Host.Core.run, hs] at h; cases h

/-! ### Arrivals during a run -/

/-- What arrives depends on the queues and the tape alone. -/
theorem deliver_congr {s t : State} (hq : s.q = t.q) (ha : s.arrivals = t.arrivals) :
    (deliver s).q = (deliver t).q ∧ (deliver s).arrivals = (deliver t).arrivals := by
  refine ⟨?_, by rw [deliver_arrivals, deliver_arrivals, ha]⟩
  unfold deliver
  rw [ha]
  split
  · exact hq
  · apply Lanes.ext_get
    intro k
    rw [State.appendAll_get, State.appendAll_get, hq]

theorem deliver_iterate_congr (n : Nat) {s t : State} (hq : s.q = t.q) (ha : s.arrivals = t.arrivals) :
    (deliver^[n] s).q = (deliver^[n] t).q ∧ (deliver^[n] s).arrivals = (deliver^[n] t).arrivals := by
  induction n generalizing s t with
  | zero => exact ⟨hq, ha⟩
  | succ n ih =>
    obtain ⟨hq', ha'⟩ := deliver_congr hq ha
    exact ih hq' ha'

/-! ### Runs of the display -/

/-- `n` steps of the display lead from `s` to `t` and add `evs` to the trace: the result and the registers stay, the queues
are what the environment made them, and up to `t` the block is in the display. -/
structure Shows (n : Nat) (s t : State) (evs : List TraceEvent) : Prop where
  run : Host.Core.run core n s = .next t
  trace : t.trace = s.trace ++ evs
  q : t.q = (deliver^[n] s).q
  arrivals : t.arrivals = (deliver^[n] s).arrivals
  result : t.result = s.result
  registers : SameRegisters t s
  status : t.status = s.status
  before : ∀ m < n, ∃ u, Host.Core.run core m s = .next u ∧ u.phase = .resultDisplay ∧ u.ctl ≠ .entry

theorem Shows.refl (s : State) : Shows 0 s s [] :=
  ⟨rfl, (List.append_nil _).symm, rfl, rfl, rfl, .refl s, rfl,
    fun _ hm => absurd hm (Nat.not_lt_zero _)⟩

theorem Shows.trans {m n : Nat} {s t u : State} {evs evs' : List TraceEvent} (h : Shows m s t evs)
    (h' : Shows n t u evs') : Shows (m + n) s u (evs ++ evs') := by
  obtain ⟨hq, ha⟩ := deliver_iterate_congr n h.q h.arrivals
  refine ⟨by rw [run_add n h.run, h'.run], by rw [h'.trace, h.trace, List.append_assoc], ?_, ?_, h'.result.trans h.result,
    h.registers.trans h'.registers, h'.status.trans h.status, fun i hi => ?_⟩
  · rw [h'.q, hq, Nat.add_comm, Function.iterate_add_apply]
  · rw [h'.arrivals, ha, Nat.add_comm, Function.iterate_add_apply]
  · rcases Nat.lt_or_ge i m with hlt | hge
    · exact h.before i hlt
    · obtain ⟨v, hv, hphase, hctl⟩ := h'.before (i - m) (by omega)
      refine ⟨v, ?_, hphase, hctl⟩
      rw [← Nat.add_sub_cancel' hge, run_add _ h.run, hv]

/-- A running block in the display, at control state `c`, whose primitives all succeed. -/
structure Displaying (c : Ctl) (s : State) : Prop where
  running : s.status = .running
  phase : s.phase = .resultDisplay
  ctl : s.ctl = c
  ok : s.neverFailing

/-- One step that writes the lamps, pauses and moves to phase `p` and control state `c'`. -/
theorem Displaying.shows_step {c c' : Ctl} {p : Phase} {s : State} {v : LampVec} {d : Duration} (h : Displaying c s)
    (hc : isEncoder c) (hstep : step s = .next { (deliver s).pulsed v d with phase := p, ctl := c' }) :
    Shows 1 s { (deliver s).pulsed v d with phase := p, ctl := c' } (pulseTrace v d) where
  run := run_succ 0 hstep
  trace := by simp [State.pulsed, pulseTrace]
  q := rfl
  arrivals := rfl
  result := deliver_result s
  registers := ⟨deliver_operand0 s, deliver_operand1 s, deliver_cur s, deliver_bidx s, deliver_op s⟩
  status := deliver_status s
  before m hm := by
    obtain rfl : m = 0 := by omega
    refine ⟨s, rfl, h.phase, fun hentry => ?_⟩
    rw [← h.ctl, hentry] at hc
    cases hc

theorem deliver_pulsed_neverFailing {s : State} (h : s.neverFailing) (v : LampVec) (d : Duration) :
    ((deliver s).pulsed v d).neverFailing :=
  h.of_drop (n := 1) (by rw [State.pulsed, deliver_draws])

/-- A step of the display to another control state of it. -/
theorem Displaying.shows_goto {c c' : Ctl} {s : State} {v : LampVec} {d : Duration} (h : Displaying c s)
    (hc : isEncoder c) (hpulse : encoderStep (deliver s) = pulse v d (·.goto c') (deliver s)) :
    ∃ t, Shows 1 s t (pulseTrace v d) ∧ Displaying c' t := by
  have hstep := step_pulse_of_succeeding h.running h.phase (h.ctl ▸ hc) hpulse (h.ok.succeeding 1)
  exact ⟨_, h.shows_step hc hstep, ⟨(deliver_status s).trans h.running, (deliver_phase s).trans h.phase, rfl,
    deliver_pulsed_neverFailing h.ok v d⟩⟩

/-! ### Cycles and bits -/

theorem shows_shine1 {i : Fin 12} {s : State} (h : Displaying (.shine1 i .on) s) :
    ∃ t, Shows 2 s t shineCycleTrace ∧ Displaying (afterShine1 i) t := by
  obtain ⟨u, hsu, hu⟩ := h.shows_goto rfl (encoderStep_shine1_on (deliver_ctl_of h.ctl))
  obtain ⟨t, hut, ht⟩ := hu.shows_goto rfl (encoderStep_shine1_off (deliver_ctl_of hu.ctl))
  exact ⟨t, hsu.trans hut, ht⟩

theorem shows_bit {j : Fin 64} {s : State} (h : Displaying (.bit j .hold) s) :
    ∃ t, Shows 2 s t (bitTrace s.result j.val) ∧ Displaying (afterBit j) t := by
  have hpulse := encoderStep_bit_hold (deliver_ctl_of h.ctl)
  rw [deliver_result] at hpulse
  obtain ⟨u, hsu, hu⟩ := h.shows_goto rfl hpulse
  obtain ⟨t, hut, ht⟩ := hu.shows_goto rfl (encoderStep_bit_gap (deliver_ctl_of hu.ctl))
  exact ⟨t, hsu.trans hut, ht⟩

/-- Back at FirstOperandInput's entry with dark lamps. -/
structure Wrapped (t : State) : Prop where
  phase : t.phase = .firstOperandInput
  ctl : t.ctl = .entry
  lamps : t.lamps = lampsOff

/-- Before cycle `i` of the second flourish, or after its last. -/
def AtShine2 (i : Nat) (t : State) : Prop :=
  if h : i < 12 then Displaying (.shine2 ⟨i, h⟩ .on) t else Wrapped t

theorem atShine2_of_lt {i : Nat} (h : i < 12) (t : State) : AtShine2 i t ↔ Displaying (.shine2 ⟨i, h⟩ .on) t := by
  rw [AtShine2, dif_pos h]

theorem atShine2_of_not_lt {i : Nat} (h : ¬i < 12) (t : State) : AtShine2 i t ↔ Wrapped t := by
  rw [AtShine2, dif_neg h]

theorem shows_shine2 {i : Fin 12} {s : State} (h : Displaying (.shine2 i .on) s) :
    ∃ t, Shows 2 s t shineCycleTrace ∧ AtShine2 (i.val + 1) t := by
  obtain ⟨u, hsu, hu⟩ := h.shows_goto rfl (encoderStep_shine2_on (deliver_ctl_of h.ctl))
  have hstep := step_pulse_of_succeeding hu.running hu.phase (hu.ctl ▸ rfl)
    (encoderStep_shine2_off (deliver_ctl_of hu.ctl)) (hu.ok.succeeding 1)
  have hphase : (deliver u).phase = .resultDisplay := (deliver_phase u).trans hu.phase
  by_cases hi : i.val + 1 < 12
  · rw [finishShine2, dif_pos hi] at hstep
    exact ⟨_, hsu.trans (hu.shows_step rfl hstep), (atShine2_of_lt hi _).2
      ⟨(deliver_status u).trans hu.running, hphase, rfl, deliver_pulsed_neverFailing hu.ok lampsOff .shineOff⟩⟩
  · rw [finishShine2, dif_neg hi] at hstep
    exact ⟨_, hsu.trans (hu.shows_step rfl hstep), (atShine2_of_not_lt hi _).2
      ⟨congrArg nextPhase hphase, rfl, rfl⟩⟩

/-! ### Flourishes and the transmission -/

/-- The control state before cycle `i` of the first flourish, or after its last. -/
def shine1At (i : Nat) : Ctl := if h : i < 12 then .shine1 ⟨i, h⟩ .on else .bit 0 .hold

/-- The control state before bit `j`, or after the last. -/
def bitAt (j : Nat) : Ctl := if h : j < 64 then .bit ⟨j, h⟩ .hold else .shine2 0 .on

/-- Rounds of two steps, from position `i` on to the last. -/
theorem shows_rounds {N : Nat} {At : Nat → State → Prop} {evs : Word → Nat → List TraceEvent}
    (hround : ∀ i < N, ∀ s, At i s → ∃ t, Shows 2 s t (evs s.result i) ∧ At (i + 1) t) (n i : Nat) (s : State)
    (hn : i + n = N) (hs : At i s) :
    ∃ t, Shows (2 * n) s t ((List.range' i n).flatMap (evs s.result)) ∧ At N t := by
  induction n generalizing i s with
  | zero =>
    obtain rfl : i = N := by omega
    exact ⟨s, Shows.refl s, hs⟩
  | succ n ih =>
    obtain ⟨u, hsu, hu⟩ := hround i (by omega) s hs
    obtain ⟨t, hut, ht⟩ := ih (i + 1) u (by omega) hu
    rw [hsu.result] at hut
    refine ⟨t, ?_, ht⟩
    rw [List.range'_succ, List.flatMap_cons, Nat.mul_succ, Nat.add_comm]
    exact hsu.trans hut

theorem shows_firstFlourish {s : State} (h : Displaying (.shine1 0 .on) s) :
    ∃ t, Shows 24 s t (shineTrace 12) ∧ Displaying (.bit 0 .hold) t := by
  have hround : ∀ i < 12, ∀ s, Displaying (shine1At i) s →
      ∃ t, Shows 2 s t shineCycleTrace ∧ Displaying (shine1At (i + 1)) t := by
    intro i hi s hs
    rw [shine1At, dif_pos hi] at hs
    exact shows_shine1 hs
  rw [shineTrace_eq 0 12]
  exact shows_rounds (evs := fun _ _ => shineCycleTrace) hround 12 0 s rfl h

theorem shows_transmission {s : State} (h : Displaying (.bit 0 .hold) s) :
    ∃ t, Shows 128 s t (bitsTrace s.result 0 64) ∧ Displaying (.shine2 0 .on) t := by
  have hround : ∀ j < 64, ∀ s, Displaying (bitAt j) s →
      ∃ t, Shows 2 s t (bitTrace s.result j) ∧ Displaying (bitAt (j + 1)) t := by
    intro j hj s hs
    rw [bitAt, dif_pos hj] at hs
    exact shows_bit hs
  rw [bitsTrace_eq]
  exact shows_rounds hround 64 0 s rfl h

theorem shows_secondFlourish {s : State} (h : Displaying (.shine2 0 .on) s) :
    ∃ t, Shows 24 s t (shineTrace 12) ∧ Wrapped t := by
  have hround : ∀ i < 12, ∀ s, AtShine2 i s → ∃ t, Shows 2 s t shineCycleTrace ∧ AtShine2 (i + 1) t := by
    intro i hi s hs
    exact shows_shine2 ((atShine2_of_lt hi s).1 hs)
  rw [shineTrace_eq 0 12]
  exact shows_rounds (evs := fun _ _ => shineCycleTrace) hround 12 0 s rfl h

/-- The 176 steps after the entry step. -/
theorem shows_display {s : State} (h : Displaying (.shine1 0 .on) s) :
    ∃ t, Shows 176 s t (displayTrace s.result) ∧ Wrapped t := by
  obtain ⟨u, hsu, hu⟩ := shows_firstFlourish h
  obtain ⟨v, huv, hv⟩ := shows_transmission hu
  obtain ⟨t, hvt, ht⟩ := shows_secondFlourish hv
  rw [hsu.result] at huv
  exact ⟨t, (hsu.trans huv).trans hvt, ht⟩

/-- Settles O31: the entry step computes the result and starts the display, and `shows_display` is the rest. -/
theorem resultDisplayRunsAndEmits : Obligations.ResultDisplayRunsAndEmits := by
  intro s hrun hstop hphase hctl hok
  have hentry := step_of_displayEntry hrun hstop hphase hctl
  have hstart : Displaying (.shine1 0 .on) (deliver s).displayEntered :=
    ⟨(deliver_status s).trans hrun, (deliver_phase s).trans hphase, rfl,
      fun b hb => hok b (by rwa [← deliver_draws s])⟩
  obtain ⟨t, hshow, hwrap⟩ := shows_display hstart
  have hresult : t.result = calculate s.operand0 s.operand1 s.op := by
    rw [hshow.result, State.displayEntered, deliver_operand0, deliver_operand1, deliver_op]
  have hreg := hshow.registers
  refine ⟨⟨t, ?run, hwrap.phase, hwrap.ctl, ?status, hwrap.lamps, hresult, hreg.operand0.trans (deliver_operand0 s),
    hreg.operand1.trans (deliver_operand1 s), hreg.op.trans (deliver_op s), hreg.cur.trans (deliver_cur s),
    hreg.bidx.trans (deliver_bidx s), ?queues, ?trace, traceTime_displayTrace _⟩, ?durations, fun n hn hn' => ?before⟩
  case run => rw [run_succ 176 hentry, hshow.run]
  case status => rw [hshow.status, hstart.running]
  case queues =>
    have hiter : deliver^[177] s = deliver^[176] (deliver s) := Function.iterate_succ_apply deliver 176 s
    have hq : (deliver s).displayEntered.q = (deliver s).q := rfl
    have harr : (deliver s).displayEntered.arrivals = (deliver s).arrivals := rfl
    obtain ⟨hsame, -⟩ := deliver_iterate_congr 176 hq harr
    rw [hshow.q, hiter, hsame]
  case trace =>
    rw [hshow.trace, hshow.result, State.displayEntered]
    simp only [deliver_trace, deliver_op, deliver_operand1]
  case durations =>
    rw [Config.tShineOff]
    omega
  case before =>
    obtain ⟨u, hu, huphase, huctl⟩ := hshow.before (n - 1) (by omega)
    refine ⟨u, ?_, huphase, huctl⟩
    rw [← Nat.sub_add_cancel hn, run_succ _ hentry, hu]

end Sys2Proof.Proofs
end

section
/-! The dispatcher's steps (41_dispatcher.md section 2) and the phase entries (40_phase_machine.md section 3). -/

namespace Sys2Proof.Proofs

open Sys2Proof.Machine

/-! ### Phase entries -/

section
variable {s : State} (hrun : s.status = .running) (hstop : s.stop = false) (hctl : s.ctl = .entry)
include hrun hstop hctl

theorem step_of_firstEntry (hphase : s.phase = .firstOperandInput) : step s = .next (enterFirst (deliver s)) := by
  have hhead : loopHead (deliver s) = .own (enterFirst (deliver s)) := by
    simp only [loopHead, deliver_stop, hstop, deliver_phase, hphase, Bool.false_eq_true, if_false]
  rw [step_of_entry hrun hctl, hhead, perform]

theorem step_of_secondEntry (hphase : s.phase = .secondOperandInput) : step s = .next (enterSecond (deliver s)) := by
  have hhead : loopHead (deliver s) = .own (enterSecond (deliver s)) := by
    simp only [loopHead, deliver_stop, hstop, deliver_phase, hphase, Bool.false_eq_true, if_false]
  rw [step_of_entry hrun hctl, hhead, perform]

theorem step_of_selectionEntry (hphase : s.phase = .operationSelection) :
    step s = .next (enterSelection (deliver s)) := by
  have hhead : loopHead (deliver s) = .own (enterSelection (deliver s)) := by
    simp only [loopHead, deliver_stop, hstop, deliver_phase, hphase, Bool.false_eq_true, if_false]
  rw [step_of_entry hrun hctl, hhead, perform]

end

section
variable {u : State}

theorem enterFirst_of_succeeding (h : u.succeeding 1) :
    enterFirst u = { u with
      cur := .zero, bidx := 0, operand0 := 0, lamps := lampsOff, keep := true, ctl := .wait
      trace := u.trace ++ [.lamps lampsOff], draws := u.draws.drop 1 } :=
  startPhase_of_succeeding (s := { u with cur := .zero, bidx := 0, operand0 := 0 }) h

theorem enterFirst_of_fails {ds : List Bool} (h : u.draws = true :: ds) :
    enterFirst u = ({ u with cur := .zero, bidx := 0, operand0 := 0, draws := ds } : State).raiseFatal .io :=
  startPhase_of_fails (s := { u with cur := .zero, bidx := 0, operand0 := 0 }) h

theorem enterSecond_of_succeeding (h : u.succeeding 1) :
    enterSecond u = { u with
      cur := .one, bidx := 0, operand1 := 0, lamps := lampsOff, keep := true, ctl := .wait
      trace := u.trace ++ [.lamps lampsOff], draws := u.draws.drop 1 } :=
  startPhase_of_succeeding (s := { u with cur := .one, bidx := 0, operand1 := 0 }) h

theorem enterSecond_of_fails {ds : List Bool} (h : u.draws = true :: ds) :
    enterSecond u = ({ u with cur := .one, bidx := 0, operand1 := 0, draws := ds } : State).raiseFatal .io :=
  startPhase_of_fails (s := { u with cur := .one, bidx := 0, operand1 := 0 }) h

theorem enterSelection_of_succeeding (h : u.succeeding 1) :
    enterSelection u = { u with
      op := 0, lamps := lampsOff, keep := true, ctl := .wait
      trace := u.trace ++ [.lamps lampsOff], draws := u.draws.drop 1 } :=
  startPhase_of_succeeding (s := { u with op := 0 }) h

theorem enterSelection_of_fails {ds : List Bool} (h : u.draws = true :: ds) :
    enterSelection u = ({ u with op := 0, draws := ds } : State).raiseFatal .io :=
  startPhase_of_fails (s := { u with op := 0 }) h

end

/-- Settles O43: the step is the phase's entry in the state the environment leaves. -/
theorem firstOperandEntry : Obligations.FirstOperandEntry := by
  intro s hrun hstop hphase hctl
  rw [step_of_firstEntry hrun hstop hctl hphase]
  refine ⟨fun hs => ?_, fun ds hd => ?_⟩
  · rw [enterFirst_of_succeeding ((deliver_succeeding s 1).2 hs), deliver_trace, deliver_draws, lampsOff]
  · rw [enterFirst_of_fails ((deliver_draws s).trans hd)]

/-- Settles O44: the step is the phase's entry in the state the environment leaves. -/
theorem secondOperandEntry : Obligations.SecondOperandEntry := by
  intro s hrun hstop hphase hctl
  rw [step_of_secondEntry hrun hstop hctl hphase]
  refine ⟨fun hs => ?_, fun ds hd => ?_⟩
  · rw [enterSecond_of_succeeding ((deliver_succeeding s 1).2 hs), deliver_trace, deliver_draws, lampsOff]
  · rw [enterSecond_of_fails ((deliver_draws s).trans hd)]

/-- Settles O45: the step is the phase's entry in the state the environment leaves. -/
theorem operationSelectionEntry : Obligations.OperationSelectionEntry := by
  intro s hrun hstop hphase hctl
  rw [step_of_selectionEntry hrun hstop hctl hphase]
  refine ⟨fun hs => ?_, fun ds hd => ?_⟩
  · rw [enterSelection_of_succeeding ((deliver_succeeding s 1).2 hs), deliver_trace, deliver_draws, lampsOff]
  · rw [enterSelection_of_fails ((deliver_draws s).trans hd)]

/-! ### Waiting -/

/-- Settles O35. -/
theorem waitHoldsWhileQueuesEmpty : Obligations.WaitHoldsWhileQueuesEmpty := by
  intro s hrun hctl hphase hempty
  have hold : step s = .next (deliver s) := by
    rw [step_of_wait hrun hctl hphase, waitStep_of_empty ((queuesEmpty_iff _).2 hempty)]
  exact ⟨hold, fun harr => by rw [hold, deliver_of_no_arrivals harr]⟩

/-- Settles O36: the snapshot is the set of pending lines. -/
theorem wakeTakesReadySnapshot : Obligations.WakeTakesReadySnapshot := by
  intro s hrun hctl hphase ⟨k, hk⟩
  have hne : (deliver s).queuesEmpty = false := by
    rw [Bool.eq_false_iff, Ne, queuesEmpty_iff]
    exact fun hempty => hk (hempty k)
  rw [step_of_wait hrun hctl hphase]
  refine ⟨fun hs => ?_, fun ds hd => ?_⟩
  · rw [waitStep_of_succeeding hne ((deliver_succeeding s 1).2 hs), deliver_draws]
    exact ⟨_, rfl, rfl, Lanes.get_pending_iff _⟩
  · rw [waitStep_of_fails hne ((deliver_draws s).trans hd)]

/-! ### The instruction of a step -/

/-- Of the control states of ResultDisplay, all but ENTRY are the encoder's. -/
theorem isEncoder_of_ctlOccurs {c : Ctl} (h : ctlOccurs .resultDisplay c = true) (hne : c ≠ .entry) : isEncoder c := by
  cases c with
  | entry => exact absurd rfl hne
  | wait => cases h
  | service => cases h
  | shine1 i half => rfl
  | bit j half => rfl
  | shine2 i half => rfl

/-- Settles O37. -/
theorem stepRunsDecodedInstruction : Obligations.StepRunsDecodedInstruction := by
  intro s hrun
  refine ⟨fun k e es hphase hctl hk hq => ?event, fun hphase hctl hstop => ?alu,
    fun k e es hphase hoccurs hne hk hq => ?held⟩
  case event => rw [step_of_service hrun hctl hphase hk hq, exec_dispatchWord k e hphase]
  case alu =>
    rw [step_of_displayEntry hrun hstop hphase hctl, exec_alu, mapNext, State.displayEntered, State.goto, deliver_op]
  case held =>
    rw [hphase] at hoccurs
    rw [step_of_encoder hrun hphase (isEncoder_of_ctlOccurs hoccurs hne), hphase, decode_dispatchWord_display]
    rfl

/-! ### Servicing -/

/-- A servicing that does not halt takes the event from the queue, the line from `S`, and merges its return into `keep`. -/
theorem event_bookkeeping {p : Phase} {k : Line} {e : Edge} {u t : State} (hp : p ≠ .resultDisplay)
    (h : service k e (eventAction p k e) u = .next t) (hrun : t.status = .running) :
    t.q = u.q.set k (u.q.get k).tail ∧ t.ready = u.ready.erase k ∧ t.keep = (u.keep && eventReturns k e) ∧
      t.ctl = u.ctl ∧ t.phase = u.phase := by
  rcases event_spec hp h with ⟨ds, -, rfl⟩ | ⟨-, -, rfl⟩ | ⟨-, -, ds, -, rfl⟩ | ⟨hr, -, rfl⟩
  · cases hrun
  · exact ⟨rfl, rfl, rfl, rfl, rfl⟩
  · cases hrun
  · simp [State.popped, eventReturns_of_renders hr]

/-- Settles O38. -/
theorem serviceTakesLowestLineOnce : Obligations.ServiceTakesLowestLineOnce := by
  intro s t hctl hphase hready hstep hrun
  obtain ⟨-, hcase⟩ := step_cases hstep
  have hserv : (deliver s).ctl = .service := by rwa [deliver_ctl]
  rw [← deliver_ready s] at hready ⊢
  rw [← deliver_phase s]
  generalize deliver s = u at hcase hserv hready ⊢
  cases hcase with
  | graceful hc => rw [hserv] at hc; cases hc
  | first hc => rw [hserv] at hc; cases hc
  | second hc => rw [hserv] at hc; cases hc
  | selection hc => rw [hserv] at hc; cases hc
  | display hc => rw [hserv] at hc; cases hc
  | wait hc => rw [hserv] at hc; cases hc
  | cycleEnd _ _ hr => exact absurd hr hready
  | event _ hp k e es hk hq ht =>
    obtain ⟨hmem, hlow⟩ := Lanes.lowest_spec hk
    obtain ⟨htq, htready, -, htctl, htphase⟩ := event_bookkeeping hp ht hrun
    refine ⟨k, e, hmem, hlow, ?_, fun j hj => ?_, ?_, fun j hj => ?_, htctl.trans hserv, htphase⟩
    · rw [htq, Lanes.get_set_self, hq, List.tail_cons]
    · rw [htq, Lanes.get_set_ne _ _ hj]
    · rw [htready, Lanes.get_erase_self]
    · rw [htready, Lanes.get_erase_ne _ hj]
  | encoder hc => rw [hserv] at hc; cases hc

/-- Settles O39. -/
theorem keepClearedOnlyByConfirm : Obligations.KeepClearedOnlyByConfirm := by
  intro p k e s t hp hexec _ hrun
  rw [exec_dispatchWord k e hp] at hexec
  obtain ⟨-, -, hkeep, -, -⟩ := event_bookkeeping hp hexec hrun
  exact hkeep

end Sys2Proof.Proofs
end

section
/-! What every step keeps: the registers outside their writers, the phase, `stop`, the trace and the ways a run ends
(10_state.md section 6, 40_phase_machine.md section 4, 60_exceptions.md sections 2 and 3). -/

namespace Sys2Proof.Proofs

open Sys2Proof.Machine

/-! ### The registers -/

/-- What a step may do to the operands, the cursor and the operation, from the state `u` after the environment's turn: an
entry of a phase resets its own, and a serviced event edits them. -/
inductive RegisterCase (u t : State) : Prop where
  | same (h : SameRegisters t u)
  | first (hp : u.phase = .firstOperandInput) (h : SameRegisters t { u with cur := .zero, bidx := 0, operand0 := 0 })
  | second (hp : u.phase = .secondOperandInput) (h : SameRegisters t { u with cur := .one, bidx := 0, operand1 := 0 })
  | selection (hp : u.phase = .operationSelection) (hc : u.ctl = .entry) (h : SameRegisters t { u with op := 0 })
  | event (hc : u.ctl = .service) (k : Line) (e : Edge) (hk : u.ready.lowest = some k)
      (hq : (u.q.get k).head? = some e) (h : SameRegisters t (eventEdit u.phase k e u))

theorem startPhase_registers (v : State) : SameRegisters (startPhase v) v := by
  rcases v.succeeding_or_fails with hs | ⟨ds, hd⟩
  · rw [startPhase_of_succeeding hs]
    exact ⟨rfl, rfl, rfl, rfl, rfl⟩
  · rw [startPhase_of_fails hd]
    exact ⟨rfl, rfl, rfl, rfl, rfl⟩

theorem waitStep_registers (u : State) : SameRegisters (waitStep u) u := by
  cases he : u.queuesEmpty with
  | true =>
    rw [waitStep_of_empty he]
    exact .refl u
  | false =>
    rcases u.succeeding_or_fails with hs | ⟨ds, hd⟩
    · rw [waitStep_of_succeeding he hs]
      exact ⟨rfl, rfl, rfl, rfl, rfl⟩
    · rw [waitStep_of_fails he hd]
      exact ⟨rfl, rfl, rfl, rfl, rfl⟩

theorem endCycle_registers (u : State) : SameRegisters (endCycle u) u := by
  unfold endCycle
  split <;> exact ⟨rfl, rfl, rfl, rfl, rfl⟩

theorem encoderCase_registers {u t : State} (h : EncoderCase u t) : SameRegisters t u := by
  cases h <;> exact ⟨rfl, rfl, rfl, rfl, rfl⟩

theorem step_registers {s t : State} (hstep : step s = .next t) : RegisterCase (deliver s) t := by
  obtain ⟨-, hcase⟩ := step_cases hstep
  generalize deliver s = u at hcase
  cases hcase with
  | graceful => exact .same ⟨rfl, rfl, rfl, rfl, rfl⟩
  | first _ _ hp => exact .first hp (startPhase_registers _)
  | second _ _ hp => exact .second hp (startPhase_registers _)
  | selection hc _ hp => exact .selection hp hc (startPhase_registers _)
  | display => exact .same ⟨rfl, rfl, rfl, rfl, rfl⟩
  | wait => exact .same (waitStep_registers u)
  | cycleEnd => exact .same (endCycle_registers u)
  | event hc hp k e es hk hq ht =>
    rcases event_registers hp ht with h | h
    · exact .same h
    · exact .event hc k e hk (by rw [hq, List.head?_cons]) h
  | encoder hc => exact .same (encoderCase_registers (encoderStep_cases hc))

/-- Of the edits, only CYCLE's writes the operation. -/
theorem eventEdit_op (p : Phase) (k : Line) (e : Edge) (s : State) :
    (eventEdit p k e s).op = s.op ∨
      (p = .operationSelection ∧ k = .l1 ∧ e = .falling ∧ (eventEdit p k e s).op = s.op + 1) := by
  have hzero : s.appendZero.op = s.op := by
    unfold State.appendZero
    split <;> rfl
  have hone : s.appendOne.op = s.op := by
    rw [appendOne_eq]
    exact s.setOperand_op _ _
  have hback : s.backspace.op = s.op := by
    rw [backspace_eq]
    exact s.setOperand_op _ _
  unfold eventEdit
  split
  · exact .inl hzero
  · exact .inl hone
  · exact .inl hback
  · exact .inl hzero
  · exact .inl hone
  · exact .inl hback
  · exact .inr ⟨rfl, rfl, rfl, rfl⟩
  · exact .inl rfl

/-- Settles O19. -/
theorem operationWrittenOnlyByEntryAndCycle : Obligations.OperationWrittenOnlyByEntryAndCycle := by
  intro s t hstep
  rw [← deliver_op s, ← deliver_phase s, ← deliver_ctl s, ← deliver_ready s]
  cases step_registers hstep with
  | same h => exact .inl h.op
  | first _ h => exact .inl h.op
  | second _ h => exact .inl h.op
  | selection hp hc h => exact .inr (.inl ⟨hp, hc, h.op⟩)
  | event hc k e hk hq h =>
    rcases eventEdit_op (deliver s).phase k e (deliver s) with hop | ⟨hp, rfl, rfl, hop⟩
    · exact .inl (h.op.trans hop)
    · exact .inr (.inr ⟨hp, hc, hk, hq, h.op.trans hop⟩)

/-- Of the edits, those of an operand phase write the current operand alone, and CYCLE's writes none. -/
theorem eventEdit_operand_ne {p : Phase} {k : Line} {e : Edge} {s : State} {i : OperandIndex}
    (h : (eventEdit p k e s).operand i ≠ s.operand i) : p.isOperand = true ∧ i = s.cur := by
  by_contra hnot
  apply h
  unfold eventEdit at h ⊢
  split at h
  · exact s.appendZero_operand i
  · exact s.appendOne_operand_ne fun hi => hnot ⟨rfl, hi⟩
  · exact s.backspace_operand_ne fun hi => hnot ⟨rfl, hi⟩
  · exact s.appendZero_operand i
  · exact s.appendOne_operand_ne fun hi => hnot ⟨rfl, hi⟩
  · exact s.backspace_operand_ne fun hi => hnot ⟨rfl, hi⟩
  · exact State.operand_congr rfl rfl i
  · rfl

/-- An operand changes only in the operand phase whose own it is. -/
theorem operand_frozen {s t : State} (hinv : StateInv s) (hstep : step s = .next t) (i : OperandIndex)
    (hne : t.operand i ≠ s.operand i) :
    (s.phase = .firstOperandInput ∧ i = .zero) ∨ (s.phase = .secondOperandInput ∧ i = .one) := by
  have h : StateInv (deliver s) := hinv.deliver
  rw [← deliver_operand s] at hne
  rw [← deliver_phase s]
  cases step_registers hstep with
  | same h => exact absurd (h.operand i) hne
  | first hp h =>
    cases i with
    | zero => exact .inl ⟨hp, rfl⟩
    | one => exact absurd h.operand1 hne
  | second hp h =>
    cases i with
    | zero => exact absurd h.operand0 hne
    | one => exact .inr ⟨hp, rfl⟩
  | selection _ _ h => exact absurd ((h.operand i).trans (State.operand_congr rfl rfl i)) hne
  | event hc k e _ _ hreg =>
    rw [hreg.operand] at hne
    obtain ⟨hop, hi⟩ := eventEdit_operand_ne hne
    have hcur := h.current ⟨hop, fun hentry => by rw [hc] at hentry; cases hentry⟩
    rw [hi, hcur]
    cases hp : (deliver s).phase with
    | firstOperandInput => exact .inl ⟨rfl, rfl⟩
    | secondOperandInput => exact .inr ⟨rfl, rfl⟩
    | operationSelection => rw [hp] at hop; cases hop
    | resultDisplay => rw [hp] at hop; cases hop

/-- Settles O49. -/
theorem operandsFrozenOutsideTheirPhase : Obligations.OperandsFrozenOutsideTheirPhase := by
  intro s t hinv hstep
  refine ⟨fun hne => ?_, fun hne => ?_⟩
  · rcases operand_frozen hinv hstep .zero hne with ⟨hp, -⟩ | ⟨-, hi⟩
    · exact hp
    · cases hi
  · rcases operand_frozen hinv hstep .one hne with ⟨-, hi⟩ | ⟨hp, -⟩
    · cases hi
    · exact hp

/-! ### The phase -/

theorem startPhase_phase (v : State) : (startPhase v).phase = v.phase := by
  rcases v.succeeding_or_fails with hs | ⟨ds, hd⟩
  · rw [startPhase_of_succeeding hs]
  · rw [startPhase_of_fails hd, State.raiseFatal_phase]

theorem waitStep_phase (u : State) : (waitStep u).phase = u.phase := by
  cases he : u.queuesEmpty with
  | true => rw [waitStep_of_empty he]
  | false =>
    rcases u.succeeding_or_fails with hs | ⟨ds, hd⟩
    · rw [waitStep_of_succeeding he hs]
    · rw [waitStep_of_fails he hd, State.raiseFatal_phase]

theorem event_phase {p : Phase} {k : Line} {e : Edge} {u t : State} (hp : p ≠ .resultDisplay)
    (h : service k e (eventAction p k e) u = .next t) : t.phase = u.phase := by
  rcases event_spec hp h with ⟨ds, -, rfl⟩ | ⟨-, -, rfl⟩ | ⟨-, -, ds, -, rfl⟩ | ⟨-, -, rfl⟩
  · rfl
  · rfl
  · exact eventEdit_phase _ _ _ _
  · exact eventEdit_phase _ _ _ _

/-- Settles O46: of the cases of a step, only the end of a wake cycle and the last encoder step return from the handler. -/
theorem phaseWrittenOnlyAtHandlerReturn : Obligations.PhaseWrittenOnlyAtHandlerReturn := by
  refine ⟨⟨rfl, rfl, rfl, rfl⟩, fun s t hstep hne => ?_⟩
  obtain ⟨-, hcase⟩ := step_cases hstep
  rw [← deliver_phase s] at hne ⊢
  rw [← deliver_ctl s, ← deliver_ready s, ← deliver_keep s]
  generalize deliver s = u at hcase hne ⊢
  cases hcase with
  | graceful => exact absurd rfl hne
  | first => exact absurd (startPhase_phase _) hne
  | second => exact absurd (startPhase_phase _) hne
  | selection => exact absurd (startPhase_phase _) hne
  | display => exact absurd rfl hne
  | wait => exact absurd (waitStep_phase u) hne
  | cycleEnd hc _ hr =>
    cases hk : u.keep with
    | true => rw [endCycle_of_keep hk] at hne; exact absurd rfl hne
    | false =>
      rw [endCycle_of_not_keep hk]
      exact ⟨rfl, rfl, .inl ⟨hc, hr, rfl⟩⟩
  | event _ hp k e _ _ _ ht => exact absurd (event_phase hp ht) hne
  | encoder hc =>
    generalize ht : encoderStep u = t at hne ⊢
    cases ht ▸ encoderStep_cases hc with
    | halts ds => exact absurd rfl hne
    | goes v d c => exact absurd rfl hne
    | returns v d hlast => exact ⟨rfl, rfl, .inr hlast⟩

/-! ### The trace, `stop` and the ways a run ends -/

/-- The writes of a step from `u` so far, before it ends or halts: the trace grows by events that are no exit, and `stop` and
the status stay. -/
structure Progress (u v : State) : Prop where
  stop : v.stop = u.stop
  status : v.status = u.status
  trace : ∃ evs, (∀ c, TraceEvent.exit c ∉ evs) ∧ v.trace = u.trace ++ evs

/-- How a step ends: it goes on, a primitive failed, or the block stopped. -/
inductive Ending (u : State) : State → Prop where
  | ongoing {t : State} (h : Progress u t) : Ending u t
  | halted {v : State} (h : Progress u v) : Ending u (v.raiseFatal .io)
  | stopped (h : u.stop = true) : Ending u u.gracefulStop

theorem Progress.of_frame {u v : State} (hstop : v.stop = u.stop) (hstatus : v.status = u.status)
    (htrace : v.trace = u.trace) : Progress u v :=
  ⟨hstop, hstatus, [], by simp, by rw [htrace, List.append_nil]⟩

theorem ending_startPhase {u v : State} (hstop : v.stop = u.stop) (hstatus : v.status = u.status)
    (htrace : v.trace = u.trace) : Ending u (startPhase v) := by
  rcases v.succeeding_or_fails with hs | ⟨ds, hd⟩
  · rw [startPhase_of_succeeding hs, htrace]
    exact .ongoing ⟨hstop, hstatus, [.lamps lampsOff], by simp, rfl⟩
  · rw [startPhase_of_fails hd]
    exact .halted (.of_frame hstop hstatus htrace)

theorem ending_waitStep (u : State) : Ending u (waitStep u) := by
  cases he : u.queuesEmpty with
  | true =>
    rw [waitStep_of_empty he]
    exact .ongoing (.of_frame rfl rfl rfl)
  | false =>
    rcases u.succeeding_or_fails with hs | ⟨ds, hd⟩
    · rw [waitStep_of_succeeding he hs]
      exact .ongoing (.of_frame rfl rfl rfl)
    · rw [waitStep_of_fails he hd]
      exact .halted (.of_frame rfl rfl rfl)

theorem ending_endCycle (u : State) : Ending u (endCycle u) := by
  unfold endCycle
  split <;> exact .ongoing (.of_frame rfl rfl rfl)

theorem ending_event {p : Phase} {k : Line} {e : Edge} {u t : State} (hp : p ≠ .resultDisplay)
    (h : service k e (eventAction p k e) u = .next t) : Ending u t := by
  rcases event_spec hp h with ⟨ds, -, rfl⟩ | ⟨-, -, rfl⟩ | ⟨-, -, ds, -, rfl⟩ | ⟨-, -, rfl⟩
  · exact .halted (.of_frame rfl rfl rfl)
  · exact .ongoing ⟨rfl, rfl, [.consume k e], by simp, rfl⟩
  · exact .halted ⟨eventEdit_stop _ _ _ _, eventEdit_status _ _ _ _, [.consume k e], by simp, eventEdit_trace _ _ _ _⟩
  · exact .ongoing ⟨eventEdit_stop _ _ _ _, eventEdit_status _ _ _ _, [.consume k e, .lamps _], by simp, rfl⟩

theorem encoderCase_ending {u t : State} (h : EncoderCase u t) : Ending u t := by
  cases h with
  | halts ds => exact .halted (.of_frame rfl rfl rfl)
  | goes v d c => exact .ongoing ⟨rfl, rfl, [.lamps v, .pause d], by simp, rfl⟩
  | returns v d => exact .ongoing ⟨rfl, rfl, [.lamps v, .pause d], by simp, rfl⟩

/-- Every step ends in one of the three ways. -/
theorem step_ending {s t : State} (hstep : step s = .next t) : s.status = .running ∧ Ending (deliver s) t := by
  obtain ⟨hrun, hcase⟩ := step_cases hstep
  refine ⟨hrun, ?_⟩
  generalize deliver s = u at hcase ⊢
  cases hcase with
  | graceful _ hs => exact .stopped hs
  | first => exact ending_startPhase rfl rfl rfl
  | second => exact ending_startPhase rfl rfl rfl
  | selection => exact ending_startPhase rfl rfl rfl
  | display => exact .ongoing ⟨rfl, rfl, _, by intro c; split <;> simp, rfl⟩
  | wait => exact ending_waitStep u
  | cycleEnd => exact ending_endCycle u
  | event _ hp k e _ _ _ ht => exact ending_event hp ht
  | encoder hc => exact encoderCase_ending (encoderStep_cases hc)

/-- Settles O47. -/
theorem stopIsNeverWritten : Obligations.StopIsNeverWritten := by
  intro s t hstep
  obtain ⟨-, hend⟩ := step_ending hstep
  rw [← deliver_stop s]
  cases hend with
  | ongoing h => exact h.stop
  | halted h => exact h.stop
  | stopped => rfl

/-- Settles O53. -/
theorem onlyIoHaltsAStep : Obligations.OnlyIoHaltsAStep := by
  intro s t hstep
  obtain ⟨hrun, hend⟩ := step_ending hstep
  cases hend with
  | ongoing h => exact .inl (by rw [h.status, deliver_status, hrun])
  | halted => exact .inr (.inl rfl)
  | stopped hs => exact .inr (.inr ⟨rfl, by rwa [deliver_stop] at hs⟩)

/-- Settles O54: before its end a step adds no exit, and each way to end a run adds one. -/
theorem exitOnceAndLast : Obligations.ExitOnceAndLast := by
  intro s t hstep
  obtain ⟨hrun, hend⟩ := step_ending hstep
  cases hend with
  | ongoing h =>
    obtain ⟨evs, hevs, htrace⟩ := h.trace
    rw [deliver_trace] at htrace
    exact ⟨evs, hevs, .inl ⟨by rw [h.status, deliver_status, hrun], htrace⟩⟩
  | halted h =>
    obtain ⟨evs, hevs, htrace⟩ := h.trace
    rw [deliver_trace] at htrace
    exact ⟨evs, hevs, .inr (.inl ⟨rfl, by rw [State.raiseFatal_trace, htrace]⟩)⟩
  | stopped =>
    exact ⟨[], by simp, .inr (.inr ⟨rfl, by rw [State.gracefulStop_trace, deliver_trace, List.append_nil]⟩)⟩

end Sys2Proof.Proofs
end

section
/-! A press beside a CONFIRM in one wake cycle (41_dispatcher.md R117, 70_reset_and_hazards.md R235). -/

namespace Sys2Proof.Machine

/-! ### Edits of states with the same registers -/

theorem SameRegisters.setOperand {a b : State} (h : SameRegisters a b) (i : OperandIndex) (w : Word) :
    SameRegisters (a.setOperand i w) (b.setOperand i w) := by
  cases i
  · exact ⟨rfl, h.operand1, h.cur, h.bidx, h.op⟩
  · exact ⟨h.operand0, rfl, h.cur, h.bidx, h.op⟩

theorem SameRegisters.with_bidx {a b : State} (h : SameRegisters a b) (x : BitVec 7) :
    SameRegisters { a with bidx := x } { b with bidx := x } :=
  ⟨h.operand0, h.operand1, h.cur, rfl, h.op⟩

theorem SameRegisters.appendZero {a b : State} (h : SameRegisters a b) : SameRegisters a.appendZero b.appendZero := by
  rw [Proofs.appendZero_eq a, Proofs.appendZero_eq b, h.bidx]
  exact h.with_bidx _

theorem SameRegisters.appendOne {a b : State} (h : SameRegisters a b) : SameRegisters a.appendOne b.appendOne := by
  rw [Proofs.appendOne_eq a, Proofs.appendOne_eq b, h.bidx, h.cur, h.operand]
  exact (h.setOperand _ _).with_bidx _

theorem SameRegisters.backspace {a b : State} (h : SameRegisters a b) : SameRegisters a.backspace b.backspace := by
  rw [Proofs.backspace_eq a, Proofs.backspace_eq b, h.bidx, h.cur, h.operand]
  exact (h.setOperand _ _).with_bidx _

theorem SameRegisters.cycleOp {a b : State} (h : SameRegisters a b) : SameRegisters a.cycleOp b.cycleOp :=
  ⟨h.operand0, h.operand1, h.cur, h.bidx, congrArg (· + 1) h.op⟩

/-- An edit reads and writes nothing but the registers. -/
theorem SameRegisters.eventEdit {a b : State} (h : SameRegisters a b) (p : Phase) (k : Line) (e : Edge) :
    SameRegisters (eventEdit p k e a) (eventEdit p k e b) := by
  unfold Machine.eventEdit
  split
  · exact h.appendZero
  · exact h.appendOne
  · exact h.backspace
  · exact h.appendZero
  · exact h.appendOne
  · exact h.backspace
  · exact h.cycleOp
  · exact h

theorem SameRegisters.eventLamps {a b : State} (h : SameRegisters a b) (p : Phase) : eventLamps p a = eventLamps p b := by
  have hop : a.operandLamps = b.operandLamps := by
    rw [State.operandLamps, h.operand, h.cur, h.bidx, State.operandLamps]
  cases p with
  | operationSelection => exact congrArg opLamps h.op
  | firstOperandInput => exact hop
  | secondOperandInput => exact hop
  | resultDisplay => exact hop

theorem deliver_registers (s : State) : SameRegisters (deliver s) s :=
  ⟨deliver_operand0 s, deliver_operand1 s, deliver_cur s, deliver_bidx s, deliver_op s⟩

theorem deliver_neverFailing {s : State} (h : s.neverFailing) : (deliver s).neverFailing :=
  fun b hb => h b (by rwa [deliver_draws] at hb)

end Sys2Proof.Machine

namespace Sys2Proof.Proofs

open Sys2Proof.Machine

/-! ### The three steps -/

/-- An event at the head of its queue is there after the environment's turn. -/
theorem deliver_get_of_cons {s : State} {k : Line} {e : Edge} {es : List Edge} (h : s.q.get k = e :: es) :
    ∃ es', (deliver s).q.get k = e :: es' := by
  obtain ⟨new, hnew⟩ := deliver_get s k
  exact ⟨es ++ new, by rw [hnew, h, List.cons_append]⟩

/-- What the servicing of a Confirm on line 0 leaves: the phase will be left when the wake cycle ends. -/
structure Confirmed (s t : State) : Prop where
  step : step s = .next t
  registers : SameRegisters t s
  ok : t.neverFailing
  status : t.status = s.status
  stop : t.stop = s.stop
  phase : t.phase = s.phase
  ctl : t.ctl = .service
  keep : t.keep = false
  ready : t.ready = s.ready.erase .l0
  other : ∀ k, k ≠ .l0 → t.q.get k = (deliver s).q.get k
  trace : t.trace = s.trace ++ [.consume .l0 .falling]

/-- A press on line 0 renders nothing in the phases a dispatcher runs. -/
theorem eventRenders_l0 (p : Phase) (e : Edge) : eventRenders p .l0 e = false := by
  cases p <;> cases e <;> rfl

theorem confirmed_of_press {s : State} {q0 : List Edge} (hrun : s.status = .running) (hctl : s.ctl = .service)
    (hphase : s.phase ≠ .resultDisplay) (hok : s.neverFailing) (hlow : s.ready.lowest = some .l0)
    (hq : s.q.get .l0 = .falling :: q0) : ∃ t, Confirmed s t := by
  obtain ⟨es, hes⟩ := deliver_get_of_cons hq
  have hstep := step_of_service hrun hctl hphase hlow hes
  rw [service_event_of_no_render hphase (eventRenders_l0 _ _) ((deliver_neverFailing hok).succeeding 1)] at hstep
  exact ⟨_, {
    step := hstep
    registers := (deliver_registers s).trans ⟨rfl, rfl, rfl, rfl, rfl⟩
    ok := (deliver_neverFailing hok).of_drop rfl
    status := deliver_status s
    stop := deliver_stop s
    phase := deliver_phase s
    ctl := (deliver_ctl s).trans hctl
    keep := Bool.and_false _
    ready := by rw [deliver_ready]
    other := fun k hk => Lanes.get_set_ne _ _ hk
    trace := by rw [deliver_trace] }⟩

/-- What the servicing of a rendering press on line `k` leaves. -/
structure Edited (k : Line) (s t : State) : Prop where
  step : step s = .next t
  registers : SameRegisters t (eventEdit s.phase k .falling s)
  status : t.status = s.status
  stop : t.stop = s.stop
  phase : t.phase = s.phase
  ctl : t.ctl = .service
  keep : t.keep = s.keep
  ready : t.ready = s.ready.erase k
  lamps : t.lamps = eventLamps s.phase t
  trace : t.trace = s.trace ++ [.consume k .falling, .lamps t.lamps]

theorem edited_of_press {s : State} {k : Line} {qk : List Edge} (hrun : s.status = .running) (hctl : s.ctl = .service)
    (hphase : s.phase ≠ .resultDisplay) (hok : s.neverFailing) (hlow : s.ready.lowest = some k)
    (hq : s.q.get k = .falling :: qk) (hr : eventRenders s.phase k .falling = true) : ∃ t, Edited k s t := by
  obtain ⟨es, hes⟩ := deliver_get_of_cons hq
  have hstep := step_of_service hrun hctl hphase hlow hes
  rw [service_event_of_render hphase hr ((deliver_neverFailing hok).succeeding 2)] at hstep
  have hedit : SameRegisters (eventEdit s.phase k .falling (deliver s)) (eventEdit s.phase k .falling s) :=
    (deliver_registers s).eventEdit _ _ _
  exact ⟨_, {
    step := hstep
    registers := hedit.trans ⟨rfl, rfl, rfl, rfl, rfl⟩
    status := (eventEdit_status _ _ _ _).trans (deliver_status s)
    stop := (eventEdit_stop _ _ _ _).trans (deliver_stop s)
    phase := (eventEdit_phase _ _ _ _).trans (deliver_phase s)
    ctl := (eventEdit_ctl _ _ _ _).trans ((deliver_ctl s).trans hctl)
    keep := (eventEdit_keep _ _ _ _).trans (deliver_keep s)
    ready := by rw [deliver_ready]
    lamps := SameRegisters.eventLamps ⟨rfl, rfl, rfl, rfl, rfl⟩ _
    trace := by rw [deliver_trace] }⟩

/-- What the three steps leave: the edit has been applied, and the phase is left. -/
structure ConfirmedAndEdited (k : Line) (s t : State) : Prop where
  run : Host.Core.run core 3 s = .next t
  registers : SameRegisters t (eventEdit s.phase k .falling s)
  status : t.status = s.status
  stop : t.stop = s.stop
  phase : t.phase = nextPhase s.phase
  ctl : t.ctl = .entry
  lamps : t.lamps = eventLamps s.phase t
  trace : t.trace = s.trace ++ [.consume .l0 .falling, .consume k .falling, .lamps t.lamps]

theorem lowest_single_set (k : Line) : ((Lanes.single .l0).set k true).lowest = some .l0 := by
  cases k <;> rfl

theorem lowest_erase_l0 {k : Line} (h : k ≠ .l0) : (((Lanes.single .l0).set k true).erase .l0).lowest = some k := by
  cases k with
  | l0 => exact absurd rfl h
  | l1 => rfl
  | l2 => rfl
  | l3 => rfl

theorem erase_both (k : Line) : (((Lanes.single .l0).set k true).erase .l0).erase k = Lanes.all false := by
  cases k <;> rfl

/-- The Confirm, the edit of line `k`, and the end of the wake cycle (R117). -/
theorem confirmedAndEdited {s : State} {k : Line} {q0 qk : List Edge} (hrun : s.status = .running)
    (hctl : s.ctl = .service) (hphase : s.phase ≠ .resultDisplay) (hok : s.neverFailing) (hk : k ≠ .l0)
    (hready : s.ready = (Lanes.single .l0).set k true) (hq0 : s.q.get .l0 = .falling :: q0)
    (hqk : s.q.get k = .falling :: qk) (hr : eventRenders s.phase k .falling = true) :
    ∃ t, ConfirmedAndEdited k s t := by
  obtain ⟨a, ha⟩ := confirmed_of_press hrun hctl hphase hok (hready ▸ lowest_single_set k) hq0
  obtain ⟨es, hes⟩ := deliver_get_of_cons hqk
  obtain ⟨b, hb⟩ := edited_of_press (ha.status.trans hrun) ha.ctl (by rwa [ha.phase]) ha.ok
    (by rw [ha.ready, hready]; exact lowest_erase_l0 hk) ((ha.other k hk).trans hes) (by rwa [ha.phase])
  have hbphase : b.phase = s.phase := hb.phase.trans ha.phase
  have hend : step b = .next (deliver b).exitPhase := by
    rw [step_eq_endCycle (hb.status.trans (ha.status.trans hrun)) hb.ctl (by rwa [hbphase])
      (by rw [hb.ready, ha.ready, hready]; exact erase_both k),
      endCycle_of_not_keep (by rw [deliver_keep, hb.keep, ha.keep]), State.exitPhase]
  have hregs : SameRegisters b (eventEdit s.phase k .falling s) := by
    have hedit := hb.registers
    rw [ha.phase] at hedit
    exact (ha.registers.eventEdit _ _ _).trans hedit
  refine ⟨(deliver b).exitPhase, {
    run := by rw [run_succ 2 ha.step, run_succ 1 hb.step, run_succ 0 hend, run_zero]
    registers := hregs.trans ((deliver_registers b).trans ⟨rfl, rfl, rfl, rfl, rfl⟩)
    status := (deliver_status b).trans (hb.status.trans ha.status)
    stop := (deliver_stop b).trans (hb.stop.trans ha.stop)
    phase := congrArg nextPhase ((deliver_phase b).trans hbphase)
    ctl := rfl
    lamps := ?_
    trace := ?_ }⟩
  · have hlamps := hb.lamps
    rw [ha.phase] at hlamps
    exact (deliver_lamps b).trans (hlamps.trans (SameRegisters.eventLamps
      ⟨(deliver_operand0 b).symm, (deliver_operand1 b).symm, (deliver_cur b).symm, (deliver_bidx b).symm,
        (deliver_op b).symm⟩ _))
  · rw [State.exitPhase_trace, State.exitPhase_lamps, deliver_trace, deliver_lamps, hb.trace, ha.trace, List.append_assoc]
    rfl

/-- In an operand phase the lines 1 to 3 render, and their edits are those of the three commands. -/
theorem eventRenders_operand {p : Phase} (hp : p.isOperand = true) {k : Line} (hk : k ≠ .l0) :
    eventRenders p k .falling = true := by
  cases p with
  | firstOperandInput | secondOperandInput =>
    cases k with
    | l0 => exact absurd rfl hk
    | l1 | l2 | l3 => rfl
  | operationSelection | resultDisplay => cases hp

theorem eventEdit_operand {p : Phase} (hp : p.isOperand = true) :
    eventEdit p .l1 .falling = State.appendZero ∧ eventEdit p .l2 .falling = State.appendOne ∧
      eventEdit p .l3 .falling = State.backspace := by
  cases p with
  | firstOperandInput => exact ⟨rfl, rfl, rfl⟩
  | secondOperandInput => exact ⟨rfl, rfl, rfl⟩
  | operationSelection => cases hp
  | resultDisplay => cases hp

/-- Settles O41: the three steps of `confirmedAndEdited`, with the edit of the phase and the line. -/
theorem editInConfirmCycleIsApplied : Obligations.EditInConfirmCycleIsApplied := by
  intro s k q0 qk hrun hctl hok hk hready hq0 hqk
  refine ⟨fun hop => ?operand, fun hsel hk1 => ?selection⟩
  case operand =>
    have hphase : s.phase ≠ .resultDisplay := fun h => by rw [h] at hop; cases hop
    obtain ⟨t, ht⟩ := confirmedAndEdited hrun hctl hphase hok hk hready hq0 hqk (eventRenders_operand hop hk)
    have hreg := ht.registers
    obtain ⟨hzero, hone, hback⟩ := eventEdit_operand hop
    refine ⟨t, ht.run, ht.phase, ht.ctl, hreg.cur.trans (eventEdit_cur _ _ _ _), fun x hx => ?_, ht.trace, ?_, ?_, ?_⟩
    · rw [hreg.operand]
      by_contra hne
      exact hx (eventEdit_operand_ne hne).2
    · rintro rfl
      rw [hzero] at hreg
      exact ⟨(hreg.operand _).trans (s.appendZero_operand _), hreg.bidx.trans s.appendZero_bidx⟩
    · rintro rfl
      rw [hone] at hreg
      exact ⟨(hreg.operand _).trans s.appendOne_operand_cur, hreg.bidx.trans s.appendOne_bidx⟩
    · rintro rfl
      rw [hback] at hreg
      exact ⟨(hreg.operand _).trans s.backspace_operand_cur, hreg.bidx.trans s.backspace_bidx⟩
  case selection =>
    subst hk1
    obtain ⟨t, ht⟩ := confirmedAndEdited hrun hctl (by rw [hsel]; decide) hok hk hready hq0 hqk (by rw [hsel]; rfl)
    have hreg := ht.registers
    have hlamps := ht.lamps
    have htphase : t.phase = .resultDisplay := by rw [ht.phase, hsel, nextPhase]
    rw [hsel] at hreg hlamps
    have hcycle : SameRegisters t s.cycleOp := hreg
    have htop : t.op.toNat = (s.op.toNat + 1) % 4 := by
      rw [hcycle.op, cycleOp_eq, BitVec.toNat_ofNat]
      exact Nat.mod_mod _ 4
    refine ⟨t, ht.run, htphase, ht.ctl, htop, hlamps, ht.trace, fun hstop => ?_⟩
    have hentry := step_of_displayEntry (ht.status.trans hrun) (ht.stop.trans hstop) htphase ht.ctl
    refine ⟨(deliver t).displayEntered, by rw [run_add 1 ht.run, run_succ 0 hentry, run_zero], ?_⟩
    rw [State.displayEntered, deliver_operand0, deliver_operand1, deliver_op, hcycle.operand0, hcycle.operand1]
    rfl

end Sys2Proof.Proofs
end

section
/-! Cleanup, the fatal path, setup and every run from it (60_exceptions.md section 2, 70_reset_and_hazards.md section 1). -/

namespace Sys2Proof.Proofs

open Sys2Proof.Machine

/-! ### The fatal path -/

/-- Settles O50: the lamps are the only value it leaves open. -/
theorem fatalPathHaltsAndReleases : Obligations.FatalPathHaltsAndReleases :=
  ⟨Nat.succ_ne_zero _, rfl, fun _ _ => rfl, fun _ s => ⟨Config.freeLamps s.free, rfl⟩⟩

/-- The members of a set, lane by lane. -/
theorem members_map {α : Type} (f : Line → α) (v : Lanes Bool) :
    v.members.map f =
      (if v.l0 then [f .l0] else []) ++ (if v.l1 then [f .l1] else []) ++ (if v.l2 then [f .l2] else []) ++
        (if v.l3 then [f .l3] else []) := by
  rcases v with ⟨a, b, c, d⟩
  cases a <;> cases b <;> cases c <;> cases d <;> rfl

/-- Settles O51. -/
theorem cleanupClosesInputsThenOutputs : Obligations.CleanupClosesInputsThenOutputs := by
  intro s
  refine ⟨?_, fun k => ⟨Lanes.get_all false k, Lanes.get_all false k⟩⟩
  rw [State.cleanup_calls, State.closeCalls, members_map, members_map]
  simp only [List.append_assoc]

/-- Settles O52. -/
theorem terminalStatusHasNoStep : Obligations.TerminalStatusHasNoStep := by
  intro s hne
  have hstuck : action (deliver s) = .stuck .terminated := by
    rw [← deliver_status s] at hne
    unfold action
    split
    next h => exact absurd h hne
    next => rfl
    next => rfl
  rw [step, hstuck, perform]

/-- Settles O56. -/
theorem resetStateAsTheTableGivesIt : Obligations.ResetStateAsTheTableGivesIt :=
  ⟨rfl, rfl, rfl, fun k => by cases k <;> rfl, rfl, rfl, fun k => by cases k <;> exact ⟨rfl, rfl⟩⟩

/-! ### Setup -/

/-- What successful calls of setup leave. -/
def callsMade (cs : List LineCall) (s : State) : State := cs.foldl (fun t c => (t.recordCall c).acquire c) s

theorem callsMade_cons (c : LineCall) (cs : List LineCall) (s : State) :
    callsMade (c :: cs) s = callsMade cs ((s.recordCall c).acquire c) := rfl

theorem acquire_with_draws (s : State) (c : LineCall) (ds : List Bool) :
    ({ s with draws := ds } : State).acquire c = { s.acquire c with draws := ds } := by
  cases c <;> rfl

/-- Recording and acquiring do not look at the draws. -/
theorem callsMade_with_draws (cs : List LineCall) (s : State) (ds : List Bool) :
    callsMade cs { s with draws := ds } = { callsMade cs s with draws := ds } := by
  induction cs generalizing s with
  | nil => rfl
  | cons c cs ih =>
    rw [callsMade_cons, callsMade_cons, ← ih]
    exact congrArg (callsMade cs) (acquire_with_draws (s.recordCall c) c ds)

theorem setupCall_of_succeeding {s : State} (c : LineCall) (h : s.succeeding 1) :
    setupCall c s = .ongoing { (s.recordCall c).acquire c with draws := s.draws.drop 1 } := by
  have hrec : (s.recordCall c).succeeding 1 := h
  rw [setupCall, attempt_of_succeeding .setup hrec, Flow.ongoing_andThen, acquire_with_draws]
  rfl

theorem setupCall_of_fails {s : State} (c : LineCall) {ds : List Bool} (h : s.draws = true :: ds) :
    setupCall c s = .halted (({ s.recordCall c with draws := ds } : State).raiseFatal .setup) := by
  have hrec : (s.recordCall c).draws = true :: ds := h
  rw [setupCall, attempt_of_fails .setup hrec, Flow.halted_andThen]

/-- Calls that all succeed use one draw each. -/
theorem runSetup_of_succeeding (cs rest : List LineCall) (s : State) (h : s.succeeding cs.length) :
    runSetup (cs ++ rest) s = runSetup rest { callsMade cs s with draws := s.draws.drop cs.length } := by
  induction cs generalizing s with
  | nil => rfl
  | cons c cs ih =>
    have hfirst : s.succeeding 1 := h.mono (by simp)
    have hrest : State.succeeding { (s.recordCall c).acquire c with draws := s.draws.drop 1 } cs.length := h.next rfl
    rw [List.cons_append, runSetup, setupCall_of_succeeding c hfirst, Flow.ongoing_andThen, ih _ hrest,
      callsMade_with_draws, callsMade_cons]
    simp only [List.drop_drop, List.length_cons, Nat.add_comm]

/-- Setup with the draws of its twelve calls: none fails. -/
theorem setup_of_succeeding {draws : List Bool} (arrivals : List (List Arrival)) (h : ∀ b ∈ draws.take 12, b = false) :
    setup draws arrivals = { State.reset with draws := draws.drop 12, arrivals := arrivals } := by
  have hs : (processStart draws arrivals).succeeding setupCalls.length := h
  have hrun := runSetup_of_succeeding setupCalls [] (processStart draws arrivals) hs
  rw [List.append_nil] at hrun
  rw [setup, hrun]
  rfl

/-- Setup whose call `n` is the first to fail: the calls up to it are made, then the lines opened before it released. -/
theorem setup_of_fails {n : Nat} (ds : List Bool) (arrivals : List (List Arrival)) (hn : n < setupCalls.length) :
    setup (List.replicate n false ++ true :: ds) arrivals =
      (({ (callsMade (setupCalls.take n)
            (processStart (List.replicate n false ++ true :: ds) arrivals)).recordCall setupCalls[n] with
          draws := ds } : State)).raiseFatal .setup := by
  have hlen : (setupCalls.take n).length = n := List.length_take_of_le hn.le
  have hs : (processStart (List.replicate n false ++ true :: ds) arrivals).succeeding (setupCalls.take n).length := by
    intro b hb
    rw [hlen] at hb
    have hmem : b ∈ List.replicate n false := by
      simpa [processStart, List.take_append_of_le_length] using hb
    exact List.eq_of_mem_replicate hmem
  have hsplit : setupCalls = setupCalls.take n ++ setupCalls[n] :: setupCalls.drop (n + 1) := by
    rw [← List.drop_eq_getElem_cons hn, List.take_append_drop]
  have hdrop : (processStart (List.replicate n false ++ true :: ds) arrivals).draws.drop n = true :: ds := by
    simp [processStart]
  have hrun := runSetup_of_succeeding (setupCalls.take n) (setupCalls[n] :: setupCalls.drop (n + 1)) _ hs
  rw [← hsplit, hlen, hdrop, runSetup, setupCall_of_fails _ rfl, Flow.halted_andThen] at hrun
  rw [setup, hrun]
  rfl

/-- Settles O55. -/
theorem setupAcquiresOrReleasesAll : Obligations.SetupAcquiresOrReleasesAll := by
  refine ⟨fun draws arrivals h => setup_of_succeeding arrivals h, fun n ds arrivals hn => ?_⟩
  have hfail := setup_of_fails ds arrivals hn
  intro t
  have ht : t = _ := hfail
  refine ⟨by rw [ht]; rfl, by rw [ht]; rfl, by rw [ht]; rfl, ?_, ?_⟩
  · rw [ht]
    interval_cases n <;> rfl
  · rw [ht]
    interval_cases n <;> rfl

/-! ### Every run -/

/-- Among the first `n` draws none fails, or one is the first to. -/
theorem draws_succeed_or_first_fails (n : Nat) (draws : List Bool) :
    (∀ b ∈ draws.take n, b = false) ∨ ∃ m < n, ∃ ds, draws = List.replicate m false ++ true :: ds := by
  induction n generalizing draws with
  | zero => exact .inl (by simp)
  | succ n ih =>
    cases draws with
    | nil => exact .inl (by simp)
    | cons d ds =>
      cases d with
      | true => exact .inr ⟨0, Nat.succ_pos n, ds, rfl⟩
      | false =>
        rcases ih ds with h | ⟨m, hm, rest, rfl⟩
        · exact .inl (by simpa using h)
        · exact .inr ⟨m + 1, Nat.succ_lt_succ hm, rest, rfl⟩

theorem reset_inv_with_tapes (draws : List Bool) (arrivals : List (List Arrival)) :
    StateInv { State.reset with draws := draws, arrivals := arrivals } := by
  have h : StateInv State.reset := resetMeetsInvariant
  exact ⟨h.control, h.cursor, h.tail, h.current, h.noStop, h.polling, h.queued, h.held, h.released, h.shownOperand,
    h.shownOp⟩

/-- The calls of setup write no register. -/
theorem callsMade_regInv (cs : List LineCall) {s : State} (h : RegInv s) : RegInv (callsMade cs s) := by
  induction cs generalizing s with
  | nil => exact h
  | cons c cs ih =>
    apply ih
    cases c <;> exact ⟨h.control, h.cursor, h.tail, h.current, h.noStop, h.polling⟩

theorem processStart_regInv (draws : List Bool) (arrivals : List (List Arrival)) :
    RegInv (processStart draws arrivals) := by
  have h := (reset_inv_with_tapes draws arrivals).regs
  exact ⟨h.control, h.cursor, h.tail, h.current, h.noStop, h.polling⟩

/-- Setup ends with the invariant, whichever of its calls fails. -/
theorem setup_inv (draws : List Bool) (arrivals : List (List Arrival)) : StateInv (setup draws arrivals) := by
  rcases draws_succeed_or_first_fails 12 draws with h | ⟨n, hn, ds, rfl⟩
  · rw [setup_of_succeeding arrivals h]
    exact reset_inv_with_tapes _ _
  · rw [setup_of_fails ds arrivals hn]
    have h := callsMade_regInv (setupCalls.take n)
      (processStart_regInv (List.replicate n false ++ true :: ds) arrivals)
    refine RegInv.raiseFatal ?_ .setup
    exact ⟨h.control, h.cursor, h.tail, h.current, h.noStop, h.polling⟩

/-- A run keeps the invariant, step by step. -/
theorem run_inv (n : Nat) {s t : State} (hinv : StateInv s) (hrun : Host.Core.run core n s = .next t) : StateInv t := by
  induction n generalizing s with
  | zero =>
    cases hrun
    exact hinv
  | succ n ih =>
    cases hs : step s with
    | next u =>
      rw [run_succ n hs] at hrun
      exact ih (everyStepKeepsInvariant s u hinv hs) hrun
    | fault r =>
      have hcore : core.step s = .fault r := hs
      simp only [Host.Core.run, hcore] at hrun
      cases hrun
    | refused r =>
      have hcore : core.step s = .refused r := hs
      simp only [Host.Core.run, hcore] at hrun
      cases hrun

/-- Settles O60: setup ends with the invariant, which every step keeps. -/
theorem everyRunKeepsInvariant : Obligations.EveryRunKeepsInvariant := by
  intro n draws arrivals t hrun
  have h : StateInv t := run_inv n (setup_inv draws arrivals) hrun
  exact ⟨h, h.cursor, h.tail⟩

end Sys2Proof.Proofs
end
